-- ==== Sys2Proof/Word.lean ====
section
/-! DEFINITION. The widths of the block (00_scope.md R7): one-byte register values, one-byte command words, eight pins. -/

namespace Sys2Proof

/-- The value of a port register, and of every access (00_scope.md R7, R11; 20_memory.md R62). -/
abbrev Byte := BitVec 8

/-- A command word (30_encoding.md R80). -/
abbrev Word := BitVec 8

/-- A pin, and the bit position it has in every register (10_state.md R20). -/
abbrev Pin := Fin 8

/-- A bus address of a register (00_scope.md R8). The spec gives addresses no width. -/
abbrev Addr := Nat

end Sys2Proof
end

