-- ==== Sys2Proof/Syntax.lean ====
section
/-! DEFINITION. The names of the spec: the five signals, the six registers, the reasons of a refusal, and the 41 command
words of spec/opcode_table.json as one inductive type, with their assembly spelling. -/

namespace Sys2Proof

/-- The five named signals (00_scope.md R17). -/
inductive Signal where
  | aClk | aData | bClk | bData | bSense
deriving DecidableEq, Repr, Inhabited

/-- The six port registers (10_state.md R20). `inp` is the spec's IN. -/
inductive Reg where
  | dir | out | inp | ie | ies | ifg
deriving DecidableEq, Repr, Inhabited

/-- The two execution contexts (60_exceptions.md R220): the foreground and the interrupt handler. -/
inductive Context where
  | fg | isr
deriving DecidableEq, Repr, Inhabited

/-- The context that is not the given one: the `c'` of 40_signal.md R104. -/
def Context.other : Context → Context
  | .fg => .isr
  | .isr => .fg

/-- The reasons of `raise Refused(r)`, the closed list of 60_exceptions.md R201. -/
inductive RefuseReason where
  /-- A word whose opcode is reserved (30_encoding.md R85). -/
  | reservedOpcode
  /-- A format S word whose selector names no signal (30_encoding.md R85). -/
  | reservedSelector
  /-- A format C or H word whose selector is not zero (30_encoding.md R85). -/
  | nonZeroSelector
  /-- A write to the read-only IN (10_state.md R27); no command makes one. -/
  | writeToIN
  /-- An access outside the six register addresses (20_memory.md R61); no command makes one. -/
  | notARegister
deriving DecidableEq, Repr, Inhabited

/-- The six Signal primitives (40_signal.md R110 to R115), each taking one signal. -/
inductive SignalOp where
  | driveHigh | driveLow | release | configureOutput | readHigh | readLow
deriving DecidableEq, Repr, Inhabited

/-- The three command formats (30_encoding.md R81): Signal primitive, BusPins composite, host-core command. -/
inductive Format where
  | s | c | h
deriving DecidableEq, Repr, Inhabited

/-- The commands: one constructor per row of spec/opcode_table.json, in the table's order. -/
inductive Instr where
  -- drive_high (40_signal.md R110)
  | driveHighAClk
  | driveHighAData
  | driveHighBClk
  | driveHighBData
  | driveHighBSense
  -- drive_low (40_signal.md R111)
  | driveLowAClk
  | driveLowAData
  | driveLowBClk
  | driveLowBData
  | driveLowBSense
  -- release (40_signal.md R112)
  | releaseAClk
  | releaseAData
  | releaseBClk
  | releaseBData
  | releaseBSense
  -- configure_output (40_signal.md R113)
  | configureOutputAClk
  | configureOutputAData
  | configureOutputBClk
  | configureOutputBData
  | configureOutputBSense
  -- read_high (40_signal.md R114)
  | readHighAClk
  | readHighAData
  | readHighBClk
  | readHighBData
  | readHighBSense
  -- read_low (40_signal.md R115)
  | readLowAClk
  | readLowAData
  | readLowBClk
  | readLowBData
  | readLowBSense
  -- the BusPins composites (41_buspins.md R130 to R138)
  | resetToIdle
  | disableClockInterrupt
  | enableClockInterrupt
  | acknowledgeClockInterrupt
  | busAIdle
  | busAInhibit
  | busAPrepareSend
  | busBTransmit
  | busBReceive
  -- the host-core commands (42_host.md R170, R171)
  | eint
  | dint
deriving DecidableEq, Repr, Inhabited

/-- The format S command of a primitive and a signal. Every primitive takes every signal (40_signal.md R118). -/
def Instr.prim : SignalOp → Signal → Instr
  | .driveHigh, .aClk => .driveHighAClk
  | .driveHigh, .aData => .driveHighAData
  | .driveHigh, .bClk => .driveHighBClk
  | .driveHigh, .bData => .driveHighBData
  | .driveHigh, .bSense => .driveHighBSense
  | .driveLow, .aClk => .driveLowAClk
  | .driveLow, .aData => .driveLowAData
  | .driveLow, .bClk => .driveLowBClk
  | .driveLow, .bData => .driveLowBData
  | .driveLow, .bSense => .driveLowBSense
  | .release, .aClk => .releaseAClk
  | .release, .aData => .releaseAData
  | .release, .bClk => .releaseBClk
  | .release, .bData => .releaseBData
  | .release, .bSense => .releaseBSense
  | .configureOutput, .aClk => .configureOutputAClk
  | .configureOutput, .aData => .configureOutputAData
  | .configureOutput, .bClk => .configureOutputBClk
  | .configureOutput, .bData => .configureOutputBData
  | .configureOutput, .bSense => .configureOutputBSense
  | .readHigh, .aClk => .readHighAClk
  | .readHigh, .aData => .readHighAData
  | .readHigh, .bClk => .readHighBClk
  | .readHigh, .bData => .readHighBData
  | .readHigh, .bSense => .readHighBSense
  | .readLow, .aClk => .readLowAClk
  | .readLow, .aData => .readLowAData
  | .readLow, .bClk => .readLowBClk
  | .readLow, .bData => .readLowBData
  | .readLow, .bSense => .readLowBSense

/-- The five signals, in the order of 30_encoding.md R82. -/
def Signal.all : List Signal := [.aClk, .aData, .bClk, .bData, .bSense]

/-- The six primitives, in the order of 30_encoding.md R84. -/
def SignalOp.all : List SignalOp := [.driveHigh, .driveLow, .release, .configureOutput, .readHigh, .readLow]

/-- The commands without an operand (30_encoding.md R81, formats C and H), in the order of R84. -/
def Instr.plain : List Instr :=
  [.resetToIdle, .disableClockInterrupt, .enableClockInterrupt, .acknowledgeClockInterrupt, .busAIdle, .busAInhibit,
    .busAPrepareSend, .busBTransmit, .busBReceive, .eint, .dint]

/-- Every command, in the table's order (30_encoding.md R84). -/
def Instr.all : List Instr := (SignalOp.all.flatMap fun op => Signal.all.map (Instr.prim op)) ++ Instr.plain

/-- The signal's name in assembly (30_encoding.md R88). -/
def Signal.asm : Signal → String
  | .aClk => "a_clk"
  | .aData => "a_data"
  | .bClk => "b_clk"
  | .bData => "b_data"
  | .bSense => "b_sense"

/-- The command's line of assembly (30_encoding.md R88). -/
def Instr.asm : Instr → String
  | .driveHighAClk => "drive_high a_clk"
  | .driveHighAData => "drive_high a_data"
  | .driveHighBClk => "drive_high b_clk"
  | .driveHighBData => "drive_high b_data"
  | .driveHighBSense => "drive_high b_sense"
  | .driveLowAClk => "drive_low a_clk"
  | .driveLowAData => "drive_low a_data"
  | .driveLowBClk => "drive_low b_clk"
  | .driveLowBData => "drive_low b_data"
  | .driveLowBSense => "drive_low b_sense"
  | .releaseAClk => "release a_clk"
  | .releaseAData => "release a_data"
  | .releaseBClk => "release b_clk"
  | .releaseBData => "release b_data"
  | .releaseBSense => "release b_sense"
  | .configureOutputAClk => "configure_output a_clk"
  | .configureOutputAData => "configure_output a_data"
  | .configureOutputBClk => "configure_output b_clk"
  | .configureOutputBData => "configure_output b_data"
  | .configureOutputBSense => "configure_output b_sense"
  | .readHighAClk => "read_high a_clk"
  | .readHighAData => "read_high a_data"
  | .readHighBClk => "read_high b_clk"
  | .readHighBData => "read_high b_data"
  | .readHighBSense => "read_high b_sense"
  | .readLowAClk => "read_low a_clk"
  | .readLowAData => "read_low a_data"
  | .readLowBClk => "read_low b_clk"
  | .readLowBData => "read_low b_data"
  | .readLowBSense => "read_low b_sense"
  | .resetToIdle => "reset_to_idle"
  | .disableClockInterrupt => "disable_clock_interrupt"
  | .enableClockInterrupt => "enable_clock_interrupt"
  | .acknowledgeClockInterrupt => "acknowledge_clock_interrupt"
  | .busAIdle => "bus_a_idle"
  | .busAInhibit => "bus_a_inhibit"
  | .busAPrepareSend => "bus_a_prepare_send"
  | .busBTransmit => "bus_b_transmit"
  | .busBReceive => "bus_b_receive"
  | .eint => "eint"
  | .dint => "dint"

end Sys2Proof
end

