-- ==== Sys2Proof/Config.lean ====
section
/-! DEFINITION. The parameters of 00_scope.md R8, the example configuration EX of R10, and the free values: what the spec leaves
OPEN or draws. A free value has no body, so no proof can say what it is. -/

namespace Sys2Proof

/-- The drive the outside applies to a pin (10_state.md R31); `z` is "not driving". -/
inductive ExtDrive where
  | low | high | z
deriving DecidableEq, Repr, Inhabited

/-- Whether an external pull resistor holds a released pin high (10_state.md R31). -/
inductive Pull where
  | up | none
deriving DecidableEq, Repr, Inhabited

/-- What the remote side may do on a pin: a set that always holds Z (92_eei_decisions.md D19), so only Low and High are told. -/
structure ExtCap where
  low : Bool
  high : Bool
deriving DecidableEq, Repr, Inhabited

/-- `e ∈ extCap(p)` (10_state.md R33). -/
def ExtCap.allows (c : ExtCap) : ExtDrive → Bool
  | .low => c.low
  | .high => c.high
  | .z => true

/-- The effect of writing 1 to an IFG bit (10_state.md R25, 92_eei_decisions.md D5). -/
inductive WriteOne where
  | sets | noEffect
deriving DecidableEq, Repr, Inhabited

/-- The bit position of each signal (00_scope.md R8, R9). -/
structure Wiring where
  aClk : Pin
  aData : Pin
  bClk : Pin
  bData : Pin
  bSense : Pin
deriving DecidableEq, Repr, Inhabited

/-- `pos` (00_scope.md R8). -/
def Wiring.pos (w : Wiring) : Signal → Pin
  | .aClk => w.aClk
  | .aData => w.aData
  | .bClk => w.bClk
  | .bData => w.bData
  | .bSense => w.bSense

/-- `pos` is injective (00_scope.md R9). -/
def Wiring.distinct (w : Wiring) : Bool :=
  decide [w.aClk, w.aData, w.bClk, w.bData, w.bSense].Nodup

/-- The bus address of each register (00_scope.md R8, 20_memory.md R60). -/
structure RegAddrs where
  dir : Addr
  out : Addr
  inp : Addr
  ie : Addr
  ies : Addr
  ifg : Addr
deriving DecidableEq, Repr, Inhabited

/-- `regAddr` (00_scope.md R8). -/
def RegAddrs.addr (a : RegAddrs) : Reg → Addr
  | .dir => a.dir
  | .out => a.out
  | .inp => a.inp
  | .ie => a.ie
  | .ies => a.ies
  | .ifg => a.ifg

/-- `regAddr` is injective (92_eei_decisions.md D2). -/
def RegAddrs.distinct (a : RegAddrs) : Bool :=
  decide [a.dir, a.out, a.inp, a.ie, a.ies, a.ifg].Nodup

/-- The parameters the model takes as arguments (00_scope.md R8). State carries them and no step writes them. -/
structure Params where
  wiring : Wiring
  regAddrs : RegAddrs
  ifgWriteOne : WriteOne
  flagNeedsEnable : Bool
  pull : Vector Pull 8
  extCap : Vector ExtCap 8
deriving DecidableEq, Repr, Inhabited

/-- The example configuration EX (00_scope.md R10): `pos` is R10's, `pull` and `flagNeedsEnable` are those of the vectors'
header in 95_test_vectors.md. DESIGN CHOICE (log entry 25): neither fixes `ifgWriteOne`, `extCap` or `regAddr`; here a one written
sets, the remote side may do anything, and the addresses only number the registers. -/
def Params.ex : Params where
  wiring := { aClk := 0, aData := 4, bClk := 2, bData := 3, bSense := 1 }
  regAddrs := { dir := 0, out := 1, inp := 2, ie := 3, ies := 4, ifg := 5 }
  ifgWriteOne := .sets
  flagNeedsEnable := false
  pull := Vector.replicate 8 .up
  extCap := Vector.replicate 8 ⟨true, true⟩

/-- Whose turn it is (00_scope.md R15): the running context's next micro-step, the host core's interrupt entry, or a step of the
outside (10_state.md R33, its forms (a) and (b)). -/
inductive Turn where
  | context
  | interrupt
  | drive (p : Pin) (e : ExtDrive)
  | redraw (p : Pin)
deriving DecidableEq, Repr, Inhabited

/-- A changed IES bit may set its flag (00_scope.md R8, decided by 92_eei_decisions.md D7). -/
def Config.iesWriteMaySetFlag : Bool := true

/-- Known reset values: none for every register (00_scope.md R8, decided by 92_eei_decisions.md D8). -/
def Config.resetRegs : Reg → Option Byte := fun _ => none

/-- FREE VALUE (log entry 4). The OPEN parameters D1, D2, D5, D6, D19 before the two injectivity conditions are asked of them. -/
opaque Config.rawParams : Params

/-- The OPEN parameters: any wiring and any addresses with distinct entries, all else unconstrained. The two defaults are never
seen where the free value meets its condition, and the free value ranges over every value that does. -/
def Config.params : Params :=
  { Config.rawParams with
    wiring := if Config.rawParams.wiring.distinct then Config.rawParams.wiring else Params.ex.wiring
    regAddrs := if Config.rawParams.regAddrs.distinct then Config.rawParams.regAddrs else Params.ex.regAddrs }

/-- FREE VALUE (log entry 8). The interrupt handler's command words (60_exceptions.md R214, 92_eei_decisions.md D15). -/
opaque Config.isrProgram : List Word

/-- FREE VALUE (log entry 5). The drawn reset value of a register (10_state.md R48, 92_eei_decisions.md D8). -/
opaque Config.resetDraw : Reg → Byte

/-- FREE VALUE (log entry 6). The drawn external drives at reset (10_state.md R48), before `extCap` is asked of them. -/
opaque Config.resetExt : Vector ExtDrive 8

/-- FREE VALUE (log entry 6). The levels of the undetermined lines at reset (10_state.md R32, R48). -/
opaque Config.resetLevels : Byte

/-- FREE VALUE (log entry 7). The unspecified read latch of a context at reset (10_state.md R40). -/
opaque Config.resetLatch : Context → Byte

/-- FREE VALUE (log entry 3). The `n`-th draw of the run, one bit for each pin (00_scope.md R12). -/
opaque Config.draw : Nat → Byte

/-- FREE VALUE (log entry 2). The `n`-th choice of the schedule (60_exceptions.md R212, 92_eei_decisions.md D32). -/
opaque Config.turn : Nat → Turn

end Sys2Proof
end

