-- ==== Sys2Proof/Machine/Lines.lean ====
section
/-! DEFINITION. Bits of a register by pin, and the level of a line (10_state.md R31, R32). -/

namespace Sys2Proof.Machine

/-- `v[p]` (00_scope.md R11). -/
def bit (v : Byte) (p : Pin) : Bool := v.getLsbD p.val

/-- What a per-pin list holds for a pin (10_state.md R31). -/
def onPin {α : Type} (v : Vector α 8) (p : Pin) : α := v.get p

/-- The byte whose bit `p` is `f p`. -/
def ofPins (f : Pin → Bool) : Byte := BitVec.ofFnLE f

/-- The port and the remote side drive the pin to opposite levels (10_state.md R32). -/
def opposed (dir out : Bool) (e : ExtDrive) : Bool :=
  dir && match e with
    | .z => false
    | .low => out
    | .high => !out

/-- The level of a line where 10_state.md R32 determines it; none where the line is undetermined (contended or floating). -/
def lineLevel (dir out : Bool) (e : ExtDrive) (pull : Pull) : Option Bool :=
  if dir then
    if opposed dir out e then none else some out
  else
    match e, pull with
    | .low, _ => some false
    | .high, _ => some true
    | .z, .up => some true
    | .z, .none => none

/-- The levels of all lines (10_state.md R32): a determined line at its level, an undetermined one at its bit of the draw. -/
def lineLevels (dir out : Byte) (ext : Vector ExtDrive 8) (pull : Vector Pull 8) (drawn : Byte) : Byte :=
  ofPins fun p => (lineLevel (bit dir p) (bit out p) (onPin ext p) (onPin pull p)).getD (bit drawn p)

/-- The Contention marks after a recomputation (10_state.md R32, R45): those there were, and those of the opposed pins. -/
def contentionMarks (before : Vector Bool 8) (dir out : Byte) (ext : Vector ExtDrive 8) : Vector Bool 8 :=
  Vector.ofFn fun p => onPin before p || opposed (bit dir p) (bit out p) (onPin ext p)

end Sys2Proof.Machine
end

