-- ==== Sys2Proof/Machine/State.lean ====
section
/-! DEFINITION. The state (10_state.md), the reasons a step can stop, and the state right after reset (10_state.md R48,
70_reset_and_hazards.md R240). -/

namespace Sys2Proof.Machine

/-- The Race marks, one for each register (10_state.md R44). -/
structure RaceMarks where
  dir : Bool
  out : Bool
  inp : Bool
  ie : Bool
  ies : Bool
  ifg : Bool
deriving DecidableEq, Repr, Inhabited

/-- The state of one execution context (10_state.md R39 to R41; 60_exceptions.md R220). -/
structure ContextState where
  /-- The index, in the context's program, of the command being executed (10_state.md R39). -/
  k : Nat
  /-- The index of that command's next micro-step (10_state.md R39). -/
  j : Nat
  /-- The read latch `t_c` (10_state.md R40). -/
  latch : Byte
  /-- The register a read-modify-write is in flight on (10_state.md R40). -/
  inflight : Option Reg
  /-- The Boolean the last read command returned (10_state.md R41). -/
  res : Option Bool
deriving DecidableEq, Repr, Inhabited

/-- The machine. Plain data; every field but the last four is named by the spec (INVENTORY.md, State). -/
structure State where
  /-- The parameters (00_scope.md R8); no step writes them. -/
  params : Params
  /-- The foreground's program, a launch input (10_state.md R38); no step writes it. -/
  fgProgram : List Word
  /-- The interrupt handler's program, a parameter (10_state.md R38); no step writes it. -/
  isrProgram : List Word
  /-- DIR (10_state.md R21). -/
  dir : Byte
  /-- OUT (10_state.md R22). -/
  out : Byte
  /-- IE (10_state.md R23). -/
  ie : Byte
  /-- IES (10_state.md R24). -/
  ies : Byte
  /-- IFG (10_state.md R25). -/
  ifg : Byte
  /-- The current line levels, which IN reads (10_state.md R27, R42). -/
  lvl : Byte
  /-- The external drive of each pin (10_state.md R31). -/
  ext : Vector ExtDrive 8
  /-- The global interrupt enable (10_state.md R36). -/
  gie : Bool
  /-- Whether the interrupt context is active (10_state.md R37). -/
  inIsr : Bool
  /-- The foreground context (10_state.md R39 to R41). -/
  fg : ContextState
  /-- The interrupt context (10_state.md R39 to R41). -/
  isr : ContextState
  /-- The Race marks (10_state.md R44), model-only. -/
  race : RaceMarks
  /-- The Contention marks, one for each pin (10_state.md R45), model-only. -/
  contention : Vector Bool 8
  /-- The FlagLoss marks, one for each pin (10_state.md R46), model-only. -/
  flagLoss : Vector Bool 8
  /-- The refusal raised, if any (10_state.md R47). -/
  refused : Option RefuseReason
  /-- The model's own (log entry 3): the draws to come, then `Config.draw`. -/
  draws : List Byte
  /-- The model's own (log entry 3): how many draws have been made. -/
  drawCount : Nat
  /-- The model's own (log entry 2): the turns to come, then `Config.turn`. -/
  turns : List Turn
  /-- The model's own (log entry 2): how many turns have been taken. -/
  turnCount : Nat
deriving DecidableEq, Repr, Inhabited

/-- The block raises no exception (60_exceptions.md R200); the one fault is the model's own. -/
inductive Fault where
  /-- Raised by `runMicro` when the cursor names a micro-step its command does not have. Safe: the machine stops. No run reaches it
  (log entry 12; the sequencing invariant of Safety.lean). -/
  | microStepPastEnd
deriving DecidableEq, Repr

/-- Why a step gives no next state. -/
inductive Refusal where
  /-- Raised by exec's arm of a command without a meaning; no arm of this model raises it. Safe: the machine stops. -/
  | notModelled (mnemonic : String)
  /-- Raised by `step` once `refused` is set: no agent takes a further step (10_state.md R47, 60_exceptions.md R201). Safe: the
  machine stops. -/
  | halted (r : RefuseReason)
deriving DecidableEq, Repr

/-- The reset value of a register: a known one where the part gives it, else the draw (10_state.md R48). -/
def resetValue (r : Reg) : Byte := (Config.resetRegs r).getD (Config.resetDraw r)

/-- A drive at reset, within what the remote side may do on the pin (10_state.md R48). -/
def resetExt (params : Params) (drawn : Vector ExtDrive 8) : Vector ExtDrive 8 :=
  Vector.ofFn fun p => if (onPin params.extCap p).allows (onPin drawn p) then onPin drawn p else .z

/-- A context at reset, with its unspecified latch (10_state.md R40, R48). -/
def ContextState.reset (latch : Byte) : ContextState :=
  { k := 0, j := 0, latch := latch, inflight := none, res := none }

/-- The state after reset for given draws: registers, drives, levels of undetermined lines, latches (10_state.md R48,
70_reset_and_hazards.md R240). The edge detector does not act at reset: `lvl` is the starting level. -/
def State.resetWith (params : Params) (isrProgram : List Word) (regs : Reg → Byte) (ext : Vector ExtDrive 8)
    (levels : Byte) (latch : Context → Byte) : State :=
  { params := params
    fgProgram := []
    isrProgram := isrProgram
    dir := regs .dir
    out := regs .out
    ie := regs .ie
    ies := regs .ies
    ifg := regs .ifg
    lvl := lineLevels (regs .dir) (regs .out) ext params.pull levels
    ext := ext
    gie := false
    inIsr := false
    fg := .reset (latch .fg)
    isr := .reset (latch .isr)
    race := ⟨false, false, false, false, false, false⟩
    contention := contentionMarks (Vector.replicate 8 false) (regs .dir) (regs .out) ext
    flagLoss := Vector.replicate 8 false
    refused := none
    draws := []
    drawCount := 0
    turns := []
    turnCount := 0 }

/-- The machine right after reset: every draw a free value (10_state.md R48). -/
def State.reset : State :=
  .resetWith Config.params Config.isrProgram resetValue (resetExt Config.params Config.resetExt)
    Config.resetLevels Config.resetLatch

end Sys2Proof.Machine
end

