-- ==== Sys2Proof/Machine/Operands.lean ====
section
/-! DEFINITION. The one operand form, a signal, and what a command makes of it: its mask (40_signal.md R101) and the two mask
helpers (R102, R103). -/

namespace Sys2Proof.Machine

/-- `m(s) = 1 << pos(s)` (40_signal.md R101). -/
def maskOf (params : Params) (sig : Signal) : Byte := 1#8 <<< (params.wiring.pos sig).val

/-- `apply_mask` (40_signal.md R102). -/
def applyMask (current mask : Byte) : Byte := current ||| mask

/-- `clear_mask` (40_signal.md R103). -/
def clearMask (current mask : Byte) : Byte := current &&& ~~~mask

/-- Which helper a masked update uses (40_signal.md R104). -/
inductive MaskFn where
  | apply | clear
deriving DecidableEq, Repr

/-- The helper (40_signal.md R104). -/
def maskFn : MaskFn → Byte → Byte → Byte
  | .apply => applyMask
  | .clear => clearMask

/-- FOREIGN: the mask of the bit positions no signal holds (00_scope.md R9). -/
def foreignMask (params : Params) : Byte :=
  ~~~(maskOf params .aClk ||| maskOf params .aData ||| maskOf params .bClk ||| maskOf params .bData |||
    maskOf params .bSense)

end Sys2Proof.Machine
end

