-- ==== Sys2Proof/Machine/Flags.lean ====
section
/-! DEFINITION. The interrupt flags: what a write to IFG leaves (10_state.md R25), what a change of IES may set (R24), what the edge
detector sets (R34), which flags a write loses (R46), and the interrupt request (60_exceptions.md R210). -/

namespace Sys2Proof.Machine

/-- IFG after the write of `v` (10_state.md R25). -/
def ifgWritten (w : WriteOne) (old v : Byte) : Byte :=
  match w with
  | .sets => v
  | .noEffect => v &&& old

/-- IFG after a write to IES, with one drawn bit for each pin (10_state.md R24). -/
def ifgAfterIes (old oldIes newIes drawn : Byte) : Byte :=
  if Config.iesWriteMaySetFlag then old ||| ((oldIes ^^^ newIes) &&& drawn) else old

/-- The selected edge on one line (10_state.md R34). -/
def triggering (ies old new : Bool) : Bool :=
  (ies && old && !new) || (!ies && !old && new)

/-- IFG after the levels of the lines went from `old` to `new` (10_state.md R34). -/
def edgeFlags (needsEnable : Bool) (ie ies ifg old new : Byte) : Byte :=
  ofPins fun p => bit ifg p ||
    (triggering (bit ies p) (bit old p) (bit new p) && (!needsEnable || bit ie p))

/-- The FlagLoss marks after a masked write of `v` to IFG (10_state.md R46, 40_signal.md R104). -/
def flagLossMarks (before : Vector Bool 8) (ifg mask v : Byte) : Vector Bool 8 :=
  Vector.ofFn fun p => onPin before p || (!bit v p && !bit mask p && bit ifg p)

/-- `irq = ((reg[IE] & reg[IFG]) != 0)` (60_exceptions.md R210). -/
def State.irq (s : State) : Bool := s.ie &&& s.ifg != 0#8

end Sys2Proof.Machine
end

