-- ==== Sys2Proof/Machine/Ops.lean ====
section
/-! DEFINITION. The named operations over the state: draws, contexts, register reads and writes (10_state.md R21 to R27), the lines
(R32, R34), the bus spelling of an access (20_memory.md R61), interrupt entry and return (60_exceptions.md R212 to R216), and the
outside (10_state.md R33). -/

namespace Sys2Proof.Machine

/-! ### Draws (00_scope.md R12) -/

/-- The next draw, one bit for each pin. -/
def State.nextDraw (s : State) : Byte := s.draws.headD (Config.draw s.drawCount)

/-- The state once that draw is made. -/
def State.afterDraw (s : State) : State :=
  { s with draws := s.draws.tail, drawCount := s.drawCount + 1 }

/-! ### Contexts (60_exceptions.md R220) -/

/-- The running context: FG takes no step while the handler is active (10_state.md R37). -/
def State.active (s : State) : Context := if s.inIsr then .isr else .fg

/-- The state of a context. -/
def State.ctx (s : State) : Context → ContextState
  | .fg => s.fg
  | .isr => s.isr

/-- Replace the state of a context. -/
def State.setCtx (s : State) (c : Context) (x : ContextState) : State :=
  match c with
  | .fg => { s with fg := x }
  | .isr => { s with isr := x }

/-- The program of a context (10_state.md R38). -/
def State.program (s : State) : Context → List Word
  | .fg => s.fgProgram
  | .isr => s.isrProgram

/-! ### Refusal (10_state.md R47) -/

/-- `raise Refused(r)` (60_exceptions.md R201). -/
def State.raise (s : State) (r : RefuseReason) : State := { s with refused := some r }

/-! ### Lines -/

/-- Recompute every line level (10_state.md R32), mark the contended pins, and let the edge detector see the changes (R34). -/
def State.recompute (s : State) : State :=
  let levels := lineLevels s.dir s.out s.ext s.params.pull s.nextDraw
  { s.afterDraw with
    lvl := levels
    contention := contentionMarks s.contention s.dir s.out s.ext
    ifg := edgeFlags s.params.flagNeedsEnable s.ie s.ies s.ifg s.lvl levels }

/-- The level R32 determines for a line, none where it is undetermined. -/
def State.levelAt (s : State) (p : Pin) : Option Bool :=
  lineLevel (bit s.dir p) (bit s.out p) (onPin s.ext p) (onPin s.params.pull p)

/-! ### Registers -/

/-- `reg[R]`: no side effect, and IN reads the lines (10_state.md R27, 20_memory.md R66). -/
def State.readReg (s : State) : Reg → Byte
  | .dir => s.dir
  | .out => s.out
  | .inp => s.lvl
  | .ie => s.ie
  | .ies => s.ies
  | .ifg => s.ifg

/-- `reg[R] <- v` with the register's write effect (10_state.md R21 to R27). -/
def State.writeReg (s : State) (r : Reg) (v : Byte) : State :=
  match r with
  | .dir => { s with dir := v }.recompute
  | .out => { s with out := v }.recompute
  | .inp => s.raise .writeToIN
  | .ie => { s with ie := v }
  | .ies => { s.afterDraw with ies := v, ifg := ifgAfterIes s.ifg s.ies v s.nextDraw }
  | .ifg => { s with ifg := ifgWritten s.params.ifgWriteOne s.ifg v }

/-- The register at a bus address (20_memory.md R60). -/
def regAt (a : RegAddrs) (x : Addr) : Option Reg :=
  [Reg.dir, .out, .inp, .ie, .ies, .ifg].find? fun r => a.addr r == x

/-- `MemRead(x, 1)` (20_memory.md R61): the register's value, and the state after the access; elsewhere no value, and the refusal
raised. -/
def State.busRead (s : State) (x : Addr) : Option Byte × State :=
  match regAt s.params.regAddrs x with
  | some r => (some (s.readReg r), s)
  | none => (none, s.raise .notARegister)

/-- `MemWrite(x, 1, v)` (20_memory.md R61): the register's write; elsewhere the refusal raised. -/
def State.busWrite (s : State) (x : Addr) (v : Byte) : State :=
  match regAt s.params.regAddrs x with
  | some r => s.writeReg r v
  | none => s.raise .notARegister

/-! ### Marks -/

/-- Whether a register's Race mark is set (10_state.md R44). -/
def RaceMarks.has (m : RaceMarks) : Reg → Bool
  | .dir => m.dir
  | .out => m.out
  | .inp => m.inp
  | .ie => m.ie
  | .ies => m.ies
  | .ifg => m.ifg

/-- The Race marks with one more, if `b` (10_state.md R44). -/
def RaceMarks.mark (m : RaceMarks) (r : Reg) (b : Bool) : RaceMarks :=
  match r with
  | .dir => { m with dir := m.dir || b }
  | .out => { m with out := m.out || b }
  | .inp => { m with inp := m.inp || b }
  | .ie => { m with ie := m.ie || b }
  | .ies => { m with ies := m.ies || b }
  | .ifg => { m with ifg := m.ifg || b }

/-- `if inflight_c' = some R then mark Race(R)` (40_signal.md R104, R105). -/
def State.markRace (s : State) (c : Context) (r : Reg) : State :=
  { s with race := s.race.mark r (decide ((s.ctx c.other).inflight = some r)) }

/-- The FlagLoss marks of a masked write, which only IFG has (40_signal.md R104). -/
def State.markFlagLoss (s : State) (r : Reg) (mask v : Byte) : State :=
  { s with flagLoss := if r = .ifg then flagLossMarks s.flagLoss s.ifg mask v else s.flagLoss }

/-! ### Interrupts -/

/-- Interrupt entry is enabled (60_exceptions.md R212). -/
def State.entryEnabled (s : State) : Bool := s.gie && s.irq && !s.inIsr && s.refused.isNone

/-- Taking the interrupt (60_exceptions.md R213): FG's own state stays in place, and no flag is cleared. -/
def State.enterInterrupt (s : State) : State :=
  { s with
    inIsr := true
    gie := false
    isr := { s.isr with k := 0, j := 0, res := none, inflight := none } }

/-- Returning from it (60_exceptions.md R215). -/
def State.returnFromInterrupt (s : State) : State := { s with inIsr := false, gie := true }

/-! ### The outside (10_state.md R33) -/

/-- Form (a): the external drive of one pin changes, then the lines are recomputed. -/
def State.driveExt (s : State) (p : Pin) (e : ExtDrive) : State :=
  { s with ext := s.ext.set p e }.recompute

/-- Form (b): the undetermined lines are drawn again (log entry 11). -/
def State.redrawLines (s : State) : State := s.recompute

/-- R33 (b) applies to undetermined lines only (10_state.md R32, R33). -/
def State.undetermined (s : State) (p : Pin) : Bool := (s.levelAt p).isNone

end Sys2Proof.Machine
end

