-- ==== Sys2Proof/Machine/Micro.lean ====
section
/-! DEFINITION. The atomic micro-steps every command is built from (40_signal.md R104 to R106, 42_host.md R170, R171), and running
the next micro-step of a command (10_state.md R39). -/

namespace Sys2Proof.Machine

/-- One atomic step of a context (00_scope.md R13). -/
inductive Micro where
  /-- The read half of a masked update of a register (40_signal.md R104, line 1). -/
  | readHalf (r : Reg)
  /-- Its write half (40_signal.md R104, line 2). -/
  | writeHalf (r : Reg) (f : MaskFn) (sig : Signal)
  /-- A full write (40_signal.md R105). -/
  | fullWrite (r : Reg) (v : Byte)
  /-- An input read whose result is whether the line has the wanted level (40_signal.md R106, R114, R115). -/
  | sample (sig : Signal) (want : Bool)
  /-- A write of the global interrupt enable (42_host.md R170, R171). -/
  | setGie (b : Bool)
deriving DecidableEq, Repr

/-- The masked update `RMW(c, R, f, m(s))` (40_signal.md R104). -/
def rmw (r : Reg) (f : MaskFn) (sig : Signal) : List Micro := [.readHalf r, .writeHalf r f sig]

/-- The read half (40_signal.md R104). -/
def State.doReadHalf (s : State) (c : Context) (r : Reg) : State :=
  s.setCtx c { s.ctx c with latch := s.readReg r, inflight := some r }

/-- Nothing of the context is in flight any more (40_signal.md R104). -/
def State.land (s : State) (c : Context) : State := s.setCtx c { s.ctx c with inflight := none }

/-- The value a write half writes: `f(t_c, mask)` (40_signal.md R104). -/
def State.writeHalfValue (s : State) (c : Context) (f : MaskFn) (sig : Signal) : Byte :=
  maskFn f (s.ctx c).latch (maskOf s.params sig)

/-- The write half (40_signal.md R104). -/
def State.doWriteHalf (s : State) (c : Context) (r : Reg) (f : MaskFn) (sig : Signal) : State :=
  ((((s.markRace c r).markFlagLoss r (maskOf s.params sig) (s.writeHalfValue c f sig)).writeReg r
    (s.writeHalfValue c f sig)).land c)

/-- The full write (40_signal.md R105). -/
def State.doFullWrite (s : State) (c : Context) (r : Reg) (v : Byte) : State := (s.markRace c r).writeReg r v

/-- `(reg[IN] & m(s)) != 0` (40_signal.md R106). -/
def State.readIn (s : State) (sig : Signal) : Bool := s.readReg .inp &&& maskOf s.params sig != 0#8

/-- The input read and its result (40_signal.md R106, R114, R115). -/
def State.doSample (s : State) (c : Context) (sig : Signal) (want : Bool) : State :=
  s.setCtx c { s.ctx c with res := some (s.readIn sig == want) }

/-- The write of the global interrupt enable (42_host.md R170, R171). -/
def State.doSetGie (s : State) (b : Bool) : State := { s with gie := b }

/-- The effect of a micro-step of context `c`. -/
def State.doMicro (s : State) (c : Context) : Micro → State
  | .readHalf r => s.doReadHalf c r
  | .writeHalf r f sig => s.doWriteHalf c r f sig
  | .fullWrite r v => s.doFullWrite c r v
  | .sample sig want => s.doSample c sig want
  | .setGie b => s.doSetGie b

/-- The cursor of a context moves past a micro-step of a command that has `n` of them (10_state.md R39, 40_signal.md R100). -/
def ContextState.advance (x : ContextState) (n : Nat) : ContextState :=
  if x.j + 1 < n then { x with j := x.j + 1 } else { x with k := x.k + 1, j := 0 }

/-- The cursor of a context moves on. -/
def State.advance (s : State) (c : Context) (n : Nat) : State := s.setCtx c ((s.ctx c).advance n)

/-- Run the next micro-step, the one the running context's cursor names, of a command with the micro-steps `ms`. -/
def runMicro (ms : List Micro) (s : State) : Host.Outcome State Fault Refusal :=
  match ms[(s.ctx s.active).j]? with
  | some m => .next ((s.doMicro s.active m).advance s.active ms.length)
  | none => .fault .microStepPastEnd

end Sys2Proof.Machine
end

