-- ==== Sys2Proof/Machine/Signal.lean ====
section
/-! DEFINITION. The six Signal primitives (40_signal.md R110 to R115): the micro-steps of each, and the meaning of each of the 30
format S commands. Every primitive is allowed on every signal (R118). -/

namespace Sys2Proof.Machine

/-- `drive_high s` (40_signal.md R110): RMW(c, OUT, apply_mask, m(s)). -/
def driveHighSteps (sig : Signal) : List Micro := rmw .out .apply sig

/-- `drive_low s` (40_signal.md R111): RMW(c, OUT, clear_mask, m(s)). -/
def driveLowSteps (sig : Signal) : List Micro := rmw .out .clear sig

/-- `release s` (40_signal.md R112): RMW(c, DIR, clear_mask, m(s)). -/
def releaseSteps (sig : Signal) : List Micro := rmw .dir .clear sig

/-- `configure_output s` (40_signal.md R113): RMW(c, DIR, apply_mask, m(s)). -/
def configureOutputSteps (sig : Signal) : List Micro := rmw .dir .apply sig

/-- `read_high s` (40_signal.md R114): READ_IN(c, s), the result true when the line is high. -/
def readHighSteps (sig : Signal) : List Micro := [.sample sig true]

/-- `read_low s` (40_signal.md R115): READ_IN(c, s), the result true when the line is low. -/
def readLowSteps (sig : Signal) : List Micro := [.sample sig false]

/-- `drive_high a_clk` (40_signal.md R110). -/
def execDriveHighAClk (s : State) : Host.Outcome State Fault Refusal := runMicro (driveHighSteps .aClk) s

/-- `drive_high a_data` (40_signal.md R110). -/
def execDriveHighAData (s : State) : Host.Outcome State Fault Refusal := runMicro (driveHighSteps .aData) s

/-- `drive_high b_clk` (40_signal.md R110). -/
def execDriveHighBClk (s : State) : Host.Outcome State Fault Refusal := runMicro (driveHighSteps .bClk) s

/-- `drive_high b_data` (40_signal.md R110). -/
def execDriveHighBData (s : State) : Host.Outcome State Fault Refusal := runMicro (driveHighSteps .bData) s

/-- `drive_high b_sense` (40_signal.md R110). -/
def execDriveHighBSense (s : State) : Host.Outcome State Fault Refusal := runMicro (driveHighSteps .bSense) s

/-- `drive_low a_clk` (40_signal.md R111). -/
def execDriveLowAClk (s : State) : Host.Outcome State Fault Refusal := runMicro (driveLowSteps .aClk) s

/-- `drive_low a_data` (40_signal.md R111). -/
def execDriveLowAData (s : State) : Host.Outcome State Fault Refusal := runMicro (driveLowSteps .aData) s

/-- `drive_low b_clk` (40_signal.md R111). -/
def execDriveLowBClk (s : State) : Host.Outcome State Fault Refusal := runMicro (driveLowSteps .bClk) s

/-- `drive_low b_data` (40_signal.md R111). -/
def execDriveLowBData (s : State) : Host.Outcome State Fault Refusal := runMicro (driveLowSteps .bData) s

/-- `drive_low b_sense` (40_signal.md R111). -/
def execDriveLowBSense (s : State) : Host.Outcome State Fault Refusal := runMicro (driveLowSteps .bSense) s

/-- `release a_clk` (40_signal.md R112). -/
def execReleaseAClk (s : State) : Host.Outcome State Fault Refusal := runMicro (releaseSteps .aClk) s

/-- `release a_data` (40_signal.md R112). -/
def execReleaseAData (s : State) : Host.Outcome State Fault Refusal := runMicro (releaseSteps .aData) s

/-- `release b_clk` (40_signal.md R112). -/
def execReleaseBClk (s : State) : Host.Outcome State Fault Refusal := runMicro (releaseSteps .bClk) s

/-- `release b_data` (40_signal.md R112). -/
def execReleaseBData (s : State) : Host.Outcome State Fault Refusal := runMicro (releaseSteps .bData) s

/-- `release b_sense` (40_signal.md R112). -/
def execReleaseBSense (s : State) : Host.Outcome State Fault Refusal := runMicro (releaseSteps .bSense) s

/-- `configure_output a_clk` (40_signal.md R113). -/
def execConfigureOutputAClk (s : State) : Host.Outcome State Fault Refusal := runMicro (configureOutputSteps .aClk) s

/-- `configure_output a_data` (40_signal.md R113). -/
def execConfigureOutputAData (s : State) : Host.Outcome State Fault Refusal := runMicro (configureOutputSteps .aData) s

/-- `configure_output b_clk` (40_signal.md R113). -/
def execConfigureOutputBClk (s : State) : Host.Outcome State Fault Refusal := runMicro (configureOutputSteps .bClk) s

/-- `configure_output b_data` (40_signal.md R113). -/
def execConfigureOutputBData (s : State) : Host.Outcome State Fault Refusal := runMicro (configureOutputSteps .bData) s

/-- `configure_output b_sense` (40_signal.md R113). -/
def execConfigureOutputBSense (s : State) : Host.Outcome State Fault Refusal := runMicro (configureOutputSteps .bSense) s

/-- `read_high a_clk` (40_signal.md R114). -/
def execReadHighAClk (s : State) : Host.Outcome State Fault Refusal := runMicro (readHighSteps .aClk) s

/-- `read_high a_data` (40_signal.md R114). -/
def execReadHighAData (s : State) : Host.Outcome State Fault Refusal := runMicro (readHighSteps .aData) s

/-- `read_high b_clk` (40_signal.md R114). -/
def execReadHighBClk (s : State) : Host.Outcome State Fault Refusal := runMicro (readHighSteps .bClk) s

/-- `read_high b_data` (40_signal.md R114). -/
def execReadHighBData (s : State) : Host.Outcome State Fault Refusal := runMicro (readHighSteps .bData) s

/-- `read_high b_sense` (40_signal.md R114). -/
def execReadHighBSense (s : State) : Host.Outcome State Fault Refusal := runMicro (readHighSteps .bSense) s

/-- `read_low a_clk` (40_signal.md R115). -/
def execReadLowAClk (s : State) : Host.Outcome State Fault Refusal := runMicro (readLowSteps .aClk) s

/-- `read_low a_data` (40_signal.md R115). -/
def execReadLowAData (s : State) : Host.Outcome State Fault Refusal := runMicro (readLowSteps .aData) s

/-- `read_low b_clk` (40_signal.md R115). -/
def execReadLowBClk (s : State) : Host.Outcome State Fault Refusal := runMicro (readLowSteps .bClk) s

/-- `read_low b_data` (40_signal.md R115). -/
def execReadLowBData (s : State) : Host.Outcome State Fault Refusal := runMicro (readLowSteps .bData) s

/-- `read_low b_sense` (40_signal.md R115). -/
def execReadLowBSense (s : State) : Host.Outcome State Fault Refusal := runMicro (readLowSteps .bSense) s

end Sys2Proof.Machine
end

