-- ==== Sys2Proof/Machine/BusPins.lean ====
section
/-! DEFINITION. The nine BusPins composites (41_buspins.md R130 to R138): the micro-steps of each and its meaning. The parts stand
in the source's listing order, clock before data (92_eei_decisions.md D10). -/

namespace Sys2Proof.Machine

/-- `reset_to_idle` (41_buspins.md R130): the full write of DIR, then the flag, the edge select and the enable of A_CLK. -/
def resetToIdleSteps : List Micro :=
  .fullWrite .dir 0#8 ::
    (rmw .ifg .clear .aClk ++ rmw .ies .apply .aClk ++ rmw .ie .apply .aClk)

/-- `reset_to_idle` (41_buspins.md R130). -/
def execResetToIdle (s : State) : Host.Outcome State Fault Refusal := runMicro resetToIdleSteps s

/-- `disable_clock_interrupt` (41_buspins.md R131): IE of A_CLK cleared. -/
def disableClockInterruptSteps : List Micro :=
  rmw .ie .clear .aClk

/-- `disable_clock_interrupt` (41_buspins.md R131). -/
def execDisableClockInterrupt (s : State) : Host.Outcome State Fault Refusal := runMicro disableClockInterruptSteps s

/-- `enable_clock_interrupt` (41_buspins.md R132): IE of A_CLK set; its precondition is the caller's and is not checked (60_exceptions.md R221). -/
def enableClockInterruptSteps : List Micro :=
  rmw .ie .apply .aClk

/-- `enable_clock_interrupt` (41_buspins.md R132). -/
def execEnableClockInterrupt (s : State) : Host.Outcome State Fault Refusal := runMicro enableClockInterruptSteps s

/-- `acknowledge_clock_interrupt` (41_buspins.md R133): the flag of A_CLK cleared. -/
def acknowledgeClockInterruptSteps : List Micro :=
  rmw .ifg .clear .aClk

/-- `acknowledge_clock_interrupt` (41_buspins.md R133). -/
def execAcknowledgeClockInterrupt (s : State) : Host.Outcome State Fault Refusal := runMicro acknowledgeClockInterruptSteps s

/-- `bus_a_idle` (41_buspins.md R134): both output bits high, then both lines released. -/
def busAIdleSteps : List Micro :=
  driveHighSteps .aClk ++ driveHighSteps .aData ++ releaseSteps .aClk ++ releaseSteps .aData

/-- `bus_a_idle` (41_buspins.md R134). -/
def execBusAIdle (s : State) : Host.Outcome State Fault Refusal := runMicro busAIdleSteps s

/-- `bus_a_inhibit` (41_buspins.md R135): the clock held low; the data output bit is written high (90_conflicts.md C1). -/
def busAInhibitSteps : List Micro :=
  driveLowSteps .aClk ++ configureOutputSteps .aClk ++ driveHighSteps .aData ++ releaseSteps .aData

/-- `bus_a_inhibit` (41_buspins.md R135). -/
def execBusAInhibit (s : State) : Host.Outcome State Fault Refusal := runMicro busAInhibitSteps s

/-- `bus_a_prepare_send` (41_buspins.md R136): the clock released, the data line driven. -/
def busAPrepareSendSteps : List Micro :=
  driveHighSteps .aClk ++ driveHighSteps .aData ++ releaseSteps .aClk ++ configureOutputSteps .aData

/-- `bus_a_prepare_send` (41_buspins.md R136). -/
def execBusAPrepareSend (s : State) : Host.Outcome State Fault Refusal := runMicro busAPrepareSendSteps s

/-- `bus_b_transmit` (41_buspins.md R137): both lines driven high. -/
def busBTransmitSteps : List Micro :=
  driveHighSteps .bClk ++ driveHighSteps .bData ++ configureOutputSteps .bClk ++ configureOutputSteps .bData

/-- `bus_b_transmit` (41_buspins.md R137). -/
def execBusBTransmit (s : State) : Host.Outcome State Fault Refusal := runMicro busBTransmitSteps s

/-- `bus_b_receive` (41_buspins.md R138): both lines released; the clock's output bit is left as it was. -/
def busBReceiveSteps : List Micro :=
  driveHighSteps .bData ++ releaseSteps .bClk ++ releaseSteps .bData

/-- `bus_b_receive` (41_buspins.md R138). -/
def execBusBReceive (s : State) : Host.Outcome State Fault Refusal := runMicro busBReceiveSteps s

end Sys2Proof.Machine
end

