-- ==== Sys2Proof/Machine/HostCommands.lean ====
section
/-! DEFINITION. The two host-core commands (42_host.md R170, R171). -/

namespace Sys2Proof.Machine

/-- `eint` (42_host.md R170): gie <- 1. -/
def eintSteps : List Micro := [.setGie true]

/-- `eint` (42_host.md R170). -/
def execEint (s : State) : Host.Outcome State Fault Refusal := runMicro eintSteps s

/-- `dint` (42_host.md R171): gie <- 0. -/
def dintSteps : List Micro := [.setGie false]

/-- `dint` (42_host.md R171). -/
def execDint (s : State) : Host.Outcome State Fault Refusal := runMicro dintSteps s

end Sys2Proof.Machine
end

