-- ==== Sys2Proof/Machine/Dispatch.lean ====
section
/-! DEFINITION. The command table's dispatch: one arm per constructor of Instr, each one direct call of its meaning. -/

namespace Sys2Proof.Machine

def exec (i : Instr) (s : State) : Host.Outcome State Fault Refusal :=
  match i with
  | .driveHighAClk => Sys2Proof.Machine.execDriveHighAClk s
  | .driveHighAData => Sys2Proof.Machine.execDriveHighAData s
  | .driveHighBClk => Sys2Proof.Machine.execDriveHighBClk s
  | .driveHighBData => Sys2Proof.Machine.execDriveHighBData s
  | .driveHighBSense => Sys2Proof.Machine.execDriveHighBSense s
  | .driveLowAClk => Sys2Proof.Machine.execDriveLowAClk s
  | .driveLowAData => Sys2Proof.Machine.execDriveLowAData s
  | .driveLowBClk => Sys2Proof.Machine.execDriveLowBClk s
  | .driveLowBData => Sys2Proof.Machine.execDriveLowBData s
  | .driveLowBSense => Sys2Proof.Machine.execDriveLowBSense s
  | .releaseAClk => Sys2Proof.Machine.execReleaseAClk s
  | .releaseAData => Sys2Proof.Machine.execReleaseAData s
  | .releaseBClk => Sys2Proof.Machine.execReleaseBClk s
  | .releaseBData => Sys2Proof.Machine.execReleaseBData s
  | .releaseBSense => Sys2Proof.Machine.execReleaseBSense s
  | .configureOutputAClk => Sys2Proof.Machine.execConfigureOutputAClk s
  | .configureOutputAData => Sys2Proof.Machine.execConfigureOutputAData s
  | .configureOutputBClk => Sys2Proof.Machine.execConfigureOutputBClk s
  | .configureOutputBData => Sys2Proof.Machine.execConfigureOutputBData s
  | .configureOutputBSense => Sys2Proof.Machine.execConfigureOutputBSense s
  | .readHighAClk => Sys2Proof.Machine.execReadHighAClk s
  | .readHighAData => Sys2Proof.Machine.execReadHighAData s
  | .readHighBClk => Sys2Proof.Machine.execReadHighBClk s
  | .readHighBData => Sys2Proof.Machine.execReadHighBData s
  | .readHighBSense => Sys2Proof.Machine.execReadHighBSense s
  | .readLowAClk => Sys2Proof.Machine.execReadLowAClk s
  | .readLowAData => Sys2Proof.Machine.execReadLowAData s
  | .readLowBClk => Sys2Proof.Machine.execReadLowBClk s
  | .readLowBData => Sys2Proof.Machine.execReadLowBData s
  | .readLowBSense => Sys2Proof.Machine.execReadLowBSense s
  | .resetToIdle => Sys2Proof.Machine.execResetToIdle s
  | .disableClockInterrupt => Sys2Proof.Machine.execDisableClockInterrupt s
  | .enableClockInterrupt => Sys2Proof.Machine.execEnableClockInterrupt s
  | .acknowledgeClockInterrupt => Sys2Proof.Machine.execAcknowledgeClockInterrupt s
  | .busAIdle => Sys2Proof.Machine.execBusAIdle s
  | .busAInhibit => Sys2Proof.Machine.execBusAInhibit s
  | .busAPrepareSend => Sys2Proof.Machine.execBusAPrepareSend s
  | .busBTransmit => Sys2Proof.Machine.execBusBTransmit s
  | .busBReceive => Sys2Proof.Machine.execBusBReceive s
  | .eint => Sys2Proof.Machine.execEint s
  | .dint => Sys2Proof.Machine.execDint s

end Sys2Proof.Machine
end

