-- ==== Sys2Proof/WellFormed.lean ====
section
/-! DEFINITION. The checks: which pairs of an opcode and a selector are command words (30_encoding.md R81, R86), and which
parameters are a wiring of the block (00_scope.md R9). -/

namespace Sys2Proof

/-- The two fields of a command word (30_encoding.md R81). -/
structure Fields where
  op : BitVec 5
  sel : BitVec 3
deriving DecidableEq, Repr

/-- The format an opcode belongs to, if it is not reserved (30_encoding.md R81). -/
def Fields.format (f : Fields) : Option Format :=
  if f.op ≤ 0b00101#5 then some .s
  else if 0b01000#5 ≤ f.op ∧ f.op ≤ 0b10000#5 then some .c
  else if 0b11110#5 ≤ f.op then some .h
  else none

/-- The fields are those of a valid word: the opcode is not reserved, and the selector names a signal in format S and is zero in
formats C and H (30_encoding.md R86). -/
def Fields.wellFormed (f : Fields) : Bool :=
  match f.format with
  | some .s => f.sel ≤ 0b100#3
  | some .c => f.sel == 0b000#3
  | some .h => f.sel == 0b000#3
  | none => false

/-- The parameters' conditions: `pos` injective (00_scope.md R9) and `regAddr` injective (92_eei_decisions.md D2). -/
def Params.wellFormed (p : Params) : Bool := p.wiring.distinct && p.regAddrs.distinct

end Sys2Proof
end

