-- ==== Sys2Proof/Decode.lean ====
section
/-! DEFINITION. Decoding (30_encoding.md R85): every 8-bit word to its command or to the reason it is invalid; then the encoder,
the word of every command (30_encoding.md R84); then assembly text (30_encoding.md R88). -/

namespace Sys2Proof

/-- w[7:3] (30_encoding.md R81). -/
def opField (w : Word) : BitVec 5 := w.extractLsb' 3 5

/-- w[2:0] (30_encoding.md R81). -/
def selField (w : Word) : BitVec 3 := w.extractLsb' 0 3

/-- The signal a selector names (30_encoding.md R82); 0b101 to 0b111 name none. -/
def signalOfSel (sel : BitVec 3) : Option Signal :=
  match sel.toNat with
  | 0 => some .aClk
  | 1 => some .aData
  | 2 => some .bClk
  | 3 => some .bData
  | 4 => some .bSense
  | _ => none

/-- The primitive of a format S opcode (30_encoding.md R84). -/
def signalOpOfOp (op : BitVec 5) : Option SignalOp :=
  match op.toNat with
  | 0 => some .driveHigh
  | 1 => some .driveLow
  | 2 => some .release
  | 3 => some .configureOutput
  | 4 => some .readHigh
  | 5 => some .readLow
  | _ => none

/-- The command of a format C or H opcode (30_encoding.md R84). -/
def plainOfOp (op : BitVec 5) : Option Instr :=
  match op.toNat with
  | 8 => some .resetToIdle
  | 9 => some .disableClockInterrupt
  | 10 => some .enableClockInterrupt
  | 11 => some .acknowledgeClockInterrupt
  | 12 => some .busAIdle
  | 13 => some .busAInhibit
  | 14 => some .busAPrepareSend
  | 15 => some .busBTransmit
  | 16 => some .busBReceive
  | 30 => some .eint
  | 31 => some .dint
  | _ => none

/-- 30_encoding.md R85, in its order of tests. -/
def decode (w : Word) : Except RefuseReason Instr :=
  match signalOpOfOp (opField w) with
  | some op =>
    match signalOfSel (selField w) with
    | some sig => .ok (.prim op sig)
    | none => .error .reservedSelector
  | none =>
    match plainOfOp (opField w) with
    | some i => if selField w = 0#3 then .ok i else .error .nonZeroSelector
    | none => .error .reservedOpcode

/-- What the decoder reads from an instruction whose bits are `w` (spec/opcode_table.json's numbering). An instruction is one byte
(30_encoding.md R80): a value that does not fit in a byte is none. -/
def decodeTableWord (nbits w : Nat) : Option Instr :=
  if w % 2 ^ nbits < 256 then
    match decode (BitVec.ofNat 8 (w % 2 ^ nbits)) with
    | .ok i => some i
    | .error _ => none
  else none

/-- The OP and SEL fields of every command (30_encoding.md R82, R84). -/
def Instr.fields : Instr → Fields
  | .driveHighAClk => ⟨0b00000, 0b000⟩
  | .driveHighAData => ⟨0b00000, 0b001⟩
  | .driveHighBClk => ⟨0b00000, 0b010⟩
  | .driveHighBData => ⟨0b00000, 0b011⟩
  | .driveHighBSense => ⟨0b00000, 0b100⟩
  | .driveLowAClk => ⟨0b00001, 0b000⟩
  | .driveLowAData => ⟨0b00001, 0b001⟩
  | .driveLowBClk => ⟨0b00001, 0b010⟩
  | .driveLowBData => ⟨0b00001, 0b011⟩
  | .driveLowBSense => ⟨0b00001, 0b100⟩
  | .releaseAClk => ⟨0b00010, 0b000⟩
  | .releaseAData => ⟨0b00010, 0b001⟩
  | .releaseBClk => ⟨0b00010, 0b010⟩
  | .releaseBData => ⟨0b00010, 0b011⟩
  | .releaseBSense => ⟨0b00010, 0b100⟩
  | .configureOutputAClk => ⟨0b00011, 0b000⟩
  | .configureOutputAData => ⟨0b00011, 0b001⟩
  | .configureOutputBClk => ⟨0b00011, 0b010⟩
  | .configureOutputBData => ⟨0b00011, 0b011⟩
  | .configureOutputBSense => ⟨0b00011, 0b100⟩
  | .readHighAClk => ⟨0b00100, 0b000⟩
  | .readHighAData => ⟨0b00100, 0b001⟩
  | .readHighBClk => ⟨0b00100, 0b010⟩
  | .readHighBData => ⟨0b00100, 0b011⟩
  | .readHighBSense => ⟨0b00100, 0b100⟩
  | .readLowAClk => ⟨0b00101, 0b000⟩
  | .readLowAData => ⟨0b00101, 0b001⟩
  | .readLowBClk => ⟨0b00101, 0b010⟩
  | .readLowBData => ⟨0b00101, 0b011⟩
  | .readLowBSense => ⟨0b00101, 0b100⟩
  | .resetToIdle => ⟨0b01000, 0b000⟩
  | .disableClockInterrupt => ⟨0b01001, 0b000⟩
  | .enableClockInterrupt => ⟨0b01010, 0b000⟩
  | .acknowledgeClockInterrupt => ⟨0b01011, 0b000⟩
  | .busAIdle => ⟨0b01100, 0b000⟩
  | .busAInhibit => ⟨0b01101, 0b000⟩
  | .busAPrepareSend => ⟨0b01110, 0b000⟩
  | .busBTransmit => ⟨0b01111, 0b000⟩
  | .busBReceive => ⟨0b10000, 0b000⟩
  | .eint => ⟨0b11110, 0b000⟩
  | .dint => ⟨0b11111, 0b000⟩

/-- The word of a command: OP in bits 7 to 3, SEL in bits 2 to 0 (30_encoding.md R81). -/
def encode (i : Instr) : Word := i.fields.op ++ i.fields.sel

/-- The command's fields pass the check of 30_encoding.md R86. -/
def Instr.wellFormed (i : Instr) : Bool := i.fields.wellFormed

/-- Whether a program holds valid words only, so that no cursor in it can raise a refusal (30_encoding.md R85, R86). -/
def programWellFormed (p : List Word) : Bool :=
  p.all fun w => match decode w with
    | .ok _ => true
    | .error _ => false

/-- A line of assembly, without its comment and the blanks around the command (30_encoding.md R88). -/
def asmText (line : List Char) : List Char :=
  (((line.takeWhile (· != ';')).dropWhile (· == ' ')).reverse.dropWhile (· == ' ')).reverse

/-- The command that a line of assembly spells (30_encoding.md R88). -/
def assembleLine (line : List Char) : Option Instr :=
  Instr.all.find? fun i => i.asm.toList == asmText line

end Sys2Proof
end

