-- ==== Sys2Proof/Machine/Schedule.lean ====
section
/-! DEFINITION. Who moves next (60_exceptions.md R212, R217; log entry 2), what a context's turn is (42_host.md R172, 60_exceptions.md
R215), and placing a word where it is fetched next. -/

namespace Sys2Proof.Machine

/-- The next choice of the schedule. -/
def State.nextTurn (s : State) : Turn := s.turns.headD (Config.turn s.turnCount)

/-- The state once that choice is made. -/
def State.afterTurn (s : State) : State :=
  { s with turns := s.turns.tail, turnCount := s.turnCount + 1 }

/-- The chosen step can be taken: the entry only where it is enabled (60_exceptions.md R212), an external drive only within
`extCap`, a re-draw only of an undetermined line (10_state.md R33). -/
def State.admits (s : State) : Turn → Bool
  | .context => true
  | .interrupt => s.entryEnabled
  | .drive p e => (onPin s.params.extCap p).allows e
  | .redraw p => s.undetermined p

/-- The turn taken: the chosen one, or the running context's where the chosen one cannot be taken. -/
def State.turn (s : State) : Turn := if s.admits s.nextTurn then s.nextTurn else .context

/-- What a step is: stopped, a step that runs no command, or one micro-step of a command. -/
inductive Move where
  | halt (r : RefuseReason)
  | settle (t : State)
  | run (i : Instr) (t : State)
deriving DecidableEq, Repr

/-- The word the running context's cursor is at (10_state.md R39). -/
def State.fetch (s : State) : Option Word := (s.program s.active)[(s.ctx s.active).k]?

/-- The running context's turn: the decoded command's micro-step (42_host.md R172), a refusal (30_encoding.md R85), the handler's
return at its end (60_exceptions.md R215), or nothing where the foreground is done (10_state.md R39; log entry 13). -/
def State.contextMove (s : State) : Move :=
  match s.fetch with
  | some w =>
    match decode w with
    | .ok i => .run i s
    | .error r => .settle (s.raise r)
  | none => .settle (if s.inIsr then s.returnFromInterrupt else s)

/-- The next step of the machine. -/
def State.move (s : State) : Move :=
  match s.refused with
  | some r => .halt r
  | none =>
    match s.turn with
    | .context => s.afterTurn.contextMove
    | .interrupt => .settle s.afterTurn.enterInterrupt
    | .drive p e => .settle (s.afterTurn.driveExt p e)
    | .redraw _ => .settle s.afterTurn.redrawLines

/-- A program with `w` at place `k`; places up to `k` that it lacked hold `w` too, and the cursor is past them. -/
def placeWord (program : List Word) (k : Nat) (w : Word) : List Word :=
  program.take k ++ List.replicate (k - program.length) w ++ w :: program.drop (k + 1)

/-- The running context's next step is the first micro-step of the command word `w` (log entry 8). -/
def State.placeNext (s : State) (w : Word) : State :=
  let x := s.ctx s.active
  let s := s.setCtx s.active { x with j := 0 }
  let s := { s with refused := none, turns := .context :: s.turns }
  if s.inIsr then { s with isrProgram := placeWord s.isrProgram x.k w }
  else { s with fgProgram := placeWord s.fgProgram x.k w }

end Sys2Proof.Machine
end

