-- ==== Sys2Proof/Machine/Step.lean ====
section
/-! DEFINITION. One step of the machine (00_scope.md R13): the move the schedule gives, a command's micro-step through exec. -/

namespace Sys2Proof.Machine

/-- One atomic step of one agent. -/
def step (s : State) : Host.Outcome State Fault Refusal :=
  match s.move with
  | .halt r => .refused (.halted r)
  | .settle t => .next t
  | .run i t => exec i t

/-- The state with the word stored where the running context fetches next (log entry 8). An instruction is one byte. -/
def State.withFetchWord (s : State) (nbits w : Nat) : State := s.placeNext (BitVec.ofNat 8 (w % 2 ^ nbits))

end Sys2Proof.Machine
end

