-- ==== Sys2Proof/Machine/MicroSteps.lean ====
section
/-! DEFINITION. The micro-steps of every command, as the meanings run them (40_signal.md, 41_buspins.md, 42_host.md). -/

namespace Sys2Proof.Machine

/-- The micro-steps of a command, in order (10_state.md R39). -/
def microSteps : Instr → List Micro
  | .driveHighAClk => driveHighSteps .aClk
  | .driveHighAData => driveHighSteps .aData
  | .driveHighBClk => driveHighSteps .bClk
  | .driveHighBData => driveHighSteps .bData
  | .driveHighBSense => driveHighSteps .bSense
  | .driveLowAClk => driveLowSteps .aClk
  | .driveLowAData => driveLowSteps .aData
  | .driveLowBClk => driveLowSteps .bClk
  | .driveLowBData => driveLowSteps .bData
  | .driveLowBSense => driveLowSteps .bSense
  | .releaseAClk => releaseSteps .aClk
  | .releaseAData => releaseSteps .aData
  | .releaseBClk => releaseSteps .bClk
  | .releaseBData => releaseSteps .bData
  | .releaseBSense => releaseSteps .bSense
  | .configureOutputAClk => configureOutputSteps .aClk
  | .configureOutputAData => configureOutputSteps .aData
  | .configureOutputBClk => configureOutputSteps .bClk
  | .configureOutputBData => configureOutputSteps .bData
  | .configureOutputBSense => configureOutputSteps .bSense
  | .readHighAClk => readHighSteps .aClk
  | .readHighAData => readHighSteps .aData
  | .readHighBClk => readHighSteps .bClk
  | .readHighBData => readHighSteps .bData
  | .readHighBSense => readHighSteps .bSense
  | .readLowAClk => readLowSteps .aClk
  | .readLowAData => readLowSteps .aData
  | .readLowBClk => readLowSteps .bClk
  | .readLowBData => readLowSteps .bData
  | .readLowBSense => readLowSteps .bSense
  | .resetToIdle => resetToIdleSteps
  | .disableClockInterrupt => disableClockInterruptSteps
  | .enableClockInterrupt => enableClockInterruptSteps
  | .acknowledgeClockInterrupt => acknowledgeClockInterruptSteps
  | .busAIdle => busAIdleSteps
  | .busAInhibit => busAInhibitSteps
  | .busAPrepareSend => busAPrepareSendSteps
  | .busBTransmit => busBTransmitSteps
  | .busBReceive => busBReceiveSteps
  | .eint => eintSteps
  | .dint => dintSteps

end Sys2Proof.Machine
end

