-- ==== Sys2Proof/Safety.lean ====
section
/-! DEFINITION. The terms claims are stated in: a command run alone, final runs and what is observed of them (42_host.md R173), fair
schedules (60_exceptions.md R212), and the invariants of the machine. -/

namespace Sys2Proof.Machine

/-! ### A command run with no step of another agent in between (40_signal.md R116, 41_buspins.md R139) -/

/-- `n` micro-steps of a command, nothing in between. -/
def execTimes : Nat → Instr → State → Host.Outcome State Fault Refusal
  | 0, _, s => .next s
  | n + 1, i, s =>
    match exec i s with
    | .next t => execTimes n i t
    | .fault r => .fault r
    | .refused r => .refused r

/-- The whole command, nothing in between: as many times exec as it has micro-steps. -/
def runAlone (i : Instr) (s : State) : Host.Outcome State Fault Refusal := execTimes (microSteps i).length i s

/-- The running context is at the first micro-step of a command (10_state.md R39). -/
abbrev AtStart (s : State) : Prop := (s.ctx s.active).j = 0

/-- The running context's cursor is past the command (10_state.md R39, 40_signal.md R100). -/
structure CommandDone (s t : State) : Prop where
  k : (t.ctx s.active).k = (s.ctx s.active).k + 1
  j : (t.ctx s.active).j = 0

/-! ### The end of a run (42_host.md R173) -/

/-- FG is done, no handler runs, nothing is in flight, nothing is refused (42_host.md R173). -/
def State.final (s : State) : Bool :=
  s.fg.k == s.fgProgram.length && s.fg.j == 0 && !s.inIsr && s.fg.inflight.isNone && s.isr.inflight.isNone &&
    s.refused.isNone

/-- What is observed of a final state (42_host.md R173): the register block, the lines, the foreground's result, the marks. -/
structure Observation where
  dir : Byte
  out : Byte
  ie : Byte
  ies : Byte
  ifg : Byte
  lvl : Byte
  res : Option Bool
  race : RaceMarks
  contention : Vector Bool 8
  flagLoss : Vector Bool 8
  refused : Option RefuseReason
deriving DecidableEq, Repr

/-- The observation of a state (42_host.md R173). -/
def State.observe (s : State) : Observation :=
  { dir := s.dir, out := s.out, ie := s.ie, ies := s.ies, ifg := s.ifg, lvl := s.lvl, res := s.fg.res,
    race := s.race, contention := s.contention, flagLoss := s.flagLoss, refused := s.refused }

/-- No misuse is recorded: the premise a claim about correct signaling takes (60_exceptions.md R202). -/
structure NoMarks (s : State) : Prop where
  race : ∀ r, s.race.has r = false
  contention : ∀ p : Pin, onPin s.contention p = false
  flagLoss : ∀ p : Pin, onPin s.flagLoss p = false
  refused : s.refused = none

/-! ### Fair schedules (60_exceptions.md R212; log entry 2) -/

/-- An infinite run of the machine. -/
def IsRun (run : Nat → State) : Prop := ∀ n, step (run n) = .next (run (n + 1))

/-- Weak fairness of the entry: it is taken at some later step unless its condition falls first (60_exceptions.md R212). -/
def EntryFair (run : Nat → State) : Prop :=
  ∀ n, (∀ m, n ≤ m → (run m).entryEnabled = true) → ∃ m, n ≤ m ∧ (run m).turn = .interrupt

/-- A context can step: it has a word, or a handler to return from (10_state.md R39, 60_exceptions.md R215). -/
def State.contextEnabled (s : State) (c : Context) : Prop :=
  s.active = c ∧ s.refused = none ∧ (c = .isr ∨ (s.ctx c).k < (s.program c).length)

/-- Weak fairness of a context (70_reset_and_hazards.md R263). -/
def ContextFair (c : Context) (run : Nat → State) : Prop :=
  ∀ n, (∀ m, n ≤ m → (run m).contextEnabled c) → ∃ m, n ≤ m ∧ (run m).turn = .context

/-! ### Invariants -/

/-- Every line that 10_state.md R32 determines is at that level. -/
def LinesSettled (s : State) : Prop := ∀ (p : Pin) (b : Bool), s.levelAt p = some b → bit s.lvl p = b

/-- Every external drive is one the remote side may apply (10_state.md R31). -/
def DrivesWithinCap (s : State) : Prop := ∀ p : Pin, (onPin s.params.extCap p).allows (onPin s.ext p) = true

/-- The register a context is in flight on while this micro-step is its next one (10_state.md R40). -/
def Micro.awaits : Micro → Option Reg
  | .writeHalf r _ _ => some r
  | _ => none

/-- The register a read half reads (40_signal.md R104). -/
def Micro.latches : Micro → Option Reg
  | .readHalf r => some r
  | _ => none

/-- A context's cursor names a micro-step of its command (or its program's end, or a reserved word), and it is in flight exactly
before a write half, on that half's register (10_state.md R39, R40). -/
def ContextSequenced (program : List Word) (x : ContextState) : Prop :=
  match program[x.k]? with
  | none => x.k = program.length ∧ x.j = 0 ∧ x.inflight = none
  | some w =>
    match decode w with
    | .error _ => x.j = 0 ∧ x.inflight = none
    | .ok i => ∃ m, (microSteps i)[x.j]? = some m ∧ x.inflight = m.awaits

/-- The sequencing invariant: the foreground always, the handler while it is active; an inactive handler has nothing in flight
(10_state.md R39, R40; 60_exceptions.md R213, R215). -/
structure Sequenced (s : State) : Prop where
  fg : ContextSequenced s.fgProgram s.fg
  isr : s.inIsr = true → ContextSequenced s.isrProgram s.isr
  idle : s.inIsr = false → s.isr.inflight = none

/-- The bits of a register that no command may change: OUT's foreign bits (40_signal.md R116), and every bit of IE and IES but
A_CLK's (60_exceptions.md R211). DIR has none: `reset_to_idle` clears them all (41_buspins.md R130). -/
def keptBits (params : Params) : Reg → Byte
  | .out => foreignMask params
  | .ie => ~~~maskOf params .aClk
  | .ies => ~~~maskOf params .aClk
  | .dir => 0#8
  | .inp => 0#8
  | .ifg => 0#8

/-- A latch in flight holds the kept bits of its register, so putting it back changes none of them. -/
def LatchesKeep (s : State) : Prop :=
  ∀ c r, (s.ctx c).inflight = some r →
    (s.ctx c).latch &&& keptBits s.params r = s.readReg r &&& keptBits s.params r

/-- A flag other than A_CLK's that a context's latch holds in flight is still set, and is in the handler's latch too if that is in
flight on the flags: so no write back sets a flag again (70_reset_and_hazards.md R260). -/
structure LatchedFlagsHold (s : State) : Prop where
  held : ∀ c, (s.ctx c).inflight = some .ifg →
    ∀ p, p ≠ s.params.wiring.pos .aClk → bit (s.ctx c).latch p = true → bit s.ifg p = true
  nested : s.fg.inflight = some .ifg → s.isr.inflight = some .ifg →
    ∀ p, p ≠ s.params.wiring.pos .aClk → bit s.fg.latch p = true → bit s.isr.latch p = true

/-! ### Frames: what a command leaves as it is -/

/-- What no command writes: the parameters, the programs, the external drives, the refusal, who is active, the schedule, and the
other context's state (00_scope.md R8; 10_state.md R31, R37, R38; 60_exceptions.md R213, R220). -/
structure SameOutside (s t : State) : Prop where
  params : t.params = s.params
  fgProgram : t.fgProgram = s.fgProgram
  isrProgram : t.isrProgram = s.isrProgram
  ext : t.ext = s.ext
  inIsr : t.inIsr = s.inIsr
  refused : t.refused = s.refused
  turns : t.turns = s.turns
  turnCount : t.turnCount = s.turnCount
  other : t.ctx s.active.other = s.ctx s.active.other

/-- The lines, their marks and their draws are as before: nothing recomputed them (10_state.md R32). -/
structure SameLines (s t : State) : Prop where
  lvl : t.lvl = s.lvl
  contention : t.contention = s.contention

/-- The Race marks of all registers but the given one are as before (10_state.md R44). -/
def SameRaceBut (r : Reg) (s t : State) : Prop := ∀ q, q ≠ r → t.race.has q = s.race.has q

/-- Each flag is as before, or was set by the selected edge of its line, under the gate of the parameters (10_state.md R34). -/
def FlagsFromEdges (s t : State) : Prop :=
  ∀ p, bit t.ifg p = (bit s.ifg p || (triggering (bit s.ies p) (bit s.lvl p) (bit t.lvl p) &&
    (!s.params.flagNeedsEnable || bit s.ie p)))

/-- No flag was cleared (10_state.md R25). -/
def NoFlagCleared (s t : State) : Prop := ∀ p, bit s.ifg p = true → bit t.ifg p = true

/-- The global enable, the result and the FlagLoss marks are as before. -/
structure SameControl (s t : State) : Prop where
  gie : t.gie = s.gie
  res : (t.ctx s.active).res = (s.ctx s.active).res
  flagLoss : t.flagLoss = s.flagLoss

/-- What one uninterrupted bus-state command leaves as it is (41_buspins.md R139, 40_signal.md R116): all that is outside, the
interrupt registers, the control fields; no flag is cleared, the lines are settled, and no update is left in flight. -/
structure BusCommandFrame (s t : State) : Prop where
  outside : SameOutside s t
  control : SameControl s t
  ie : t.ie = s.ie
  ies : t.ies = s.ies
  flags : NoFlagCleared s t
  lines : LinesSettled t
  landed : (t.ctx s.active).inflight = none
  race : ∀ r, r ≠ .dir → r ≠ .out → t.race.has r = s.race.has r
  done : CommandDone s t

/-- All marks that were set still are (10_state.md R43). -/
structure MarksKept (s t : State) : Prop where
  race : ∀ r, s.race.has r = true → t.race.has r = true
  contention : ∀ p : Pin, onPin s.contention p = true → onPin t.contention p = true
  flagLoss : ∀ p : Pin, onPin s.flagLoss p = true → onPin t.flagLoss p = true
  refused : s.refused ≠ none → t.refused = s.refused

end Sys2Proof.Machine
end

