-- ==== Sys2Proof/Certificates/Slice0/Obligations.lean ====
section
/-! DEFINITION. The statements for the provers: what the spec's numbered rules say of the machine. -/

section

open Sys2Proof Sys2Proof.Machine

/-! ### Encoding -/

/-- 30_encoding.md R85: the decoder's verdict on every word, by its two fields. The encoding is the spec's own decision D12, D13,
D14. -/
def Obligations.DecodingFollowsTheFields : Prop :=
  ∀ w : Word,
    (opField w ≤ 5#5 → 5#3 ≤ selField w → decode w = .error .reservedSelector) ∧
    (opField w ≤ 5#5 → selField w < 5#3 → ∃ op sig, decode w = .ok (.prim op sig) ∧
      signalOpOfOp (opField w) = some op ∧ signalOfSel (selField w) = some sig) ∧
    (((8#5 ≤ opField w ∧ opField w ≤ 16#5) ∨ 30#5 ≤ opField w) → selField w ≠ 0#3 →
      decode w = .error .nonZeroSelector) ∧
    (((8#5 ≤ opField w ∧ opField w ≤ 16#5) ∨ 30#5 ≤ opField w) → selField w = 0#3 →
      ∃ i, decode w = .ok i ∧ plainOfOp (opField w) = some i) ∧
    ((opField w = 6#5 ∨ opField w = 7#5 ∨ (17#5 ≤ opField w ∧ opField w ≤ 29#5)) →
      decode w = .error .reservedOpcode)

/-- 30_encoding.md R84, R85: encoding and decoding are inverse to each other, and every command's fields are well-formed. The
encoding is the spec's own decision D12, D13, D14. -/
def Obligations.DecodeInvertsEncode : Prop :=
  (∀ i : Instr, i.wellFormed = true ∧ decode (encode i) = .ok i) ∧
  (∀ (w : Word) (i : Instr), decode w = .ok i → encode i = w)

/-- 30_encoding.md R86: 41 valid words and 215 reserved ones. The count is derived by the spec from its decision D12. -/
def Obligations.FortyOneWordsAreValid : Prop :=
  ((List.range 256).filter fun n => (decode (BitVec.ofNat 8 n)).isOk).length = 41 ∧
  ((List.range 256).filter fun n => !(decode (BitVec.ofNat 8 n)).isOk).length = 215

/-- 30_encoding.md R84: words written out from the opcode map, one of each family at least. The encoding is the spec's own
decision D12, D14. -/
def Obligations.SampleWordsDecode : Prop :=
  decode 0b00000000#8 = .ok .driveHighAClk ∧ decode 0b00001011#8 = .ok .driveLowBData ∧
  decode 0b00010010#8 = .ok .releaseBClk ∧ decode 0b00011001#8 = .ok .configureOutputAData ∧
  decode 0b00100100#8 = .ok .readHighBSense ∧ decode 0b00101000#8 = .ok .readLowAClk ∧
  decode 0b01000000#8 = .ok .resetToIdle ∧ decode 0b01010000#8 = .ok .enableClockInterrupt ∧
  decode 0b01101000#8 = .ok .busAInhibit ∧ decode 0b10000000#8 = .ok .busBReceive ∧
  decode 0b11110000#8 = .ok .eint ∧ decode 0b11111000#8 = .ok .dint

/-! ### Steps and sequencing -/

/-- 42_host.md R172: where the running context's word decodes, and the turn is the context's, a step is exec of the decoded
command on the state whose turn is taken. That a step is one micro-step is log entry 1; the turn is log entry 2; the straight-line
program is the spec's decision D12. -/
def Obligations.StepRunsTheDecodedCommand : Prop :=
  ∀ (s : State) (w : Word) (i : Instr), s.refused = none → s.turn = .context → s.fetch = some w → decode w = .ok i →
    step s = exec i s.afterTurn

/-- 70_reset_and_hazards.md R263: the number of micro-steps of every command. The counts are derived by the spec from its
micro-step lists. -/
def Obligations.MicroStepCounts : Prop :=
  (∀ op sig, (microSteps (.prim op sig)).length = if op = .readHigh ∨ op = .readLow then 1 else 2) ∧
  (microSteps .disableClockInterrupt).length = 2 ∧ (microSteps .enableClockInterrupt).length = 2 ∧
  (microSteps .acknowledgeClockInterrupt).length = 2 ∧ (microSteps .busBReceive).length = 6 ∧
  (microSteps .resetToIdle).length = 7 ∧ (microSteps .busAIdle).length = 8 ∧ (microSteps .busAInhibit).length = 8 ∧
  (microSteps .busAPrepareSend).length = 8 ∧ (microSteps .busBTransmit).length = 8 ∧
  (microSteps .eint).length = 1 ∧ (microSteps .dint).length = 1

/-- 40_signal.md R100, 41_buspins.md R141: every command, at every one of its micro-steps and in every state, completes that
micro-step: exec answers a next state, with the cursor at the next micro-step or past the command. That exec runs one micro-step
is log entry 1. -/
def Obligations.EveryMicroStepCompletes : Prop :=
  ∀ (i : Instr) (s : State), (s.ctx s.active).j < (microSteps i).length →
    ∃ t, exec i s = .next t ∧
      if (s.ctx s.active).j + 1 < (microSteps i).length then
        (t.ctx s.active).k = (s.ctx s.active).k ∧ (t.ctx s.active).j = (s.ctx s.active).j + 1
      else CommandDone s t

/-! ### Masks -/

/-- 40_signal.md R102, R103: the two helpers, bit by bit. -/
def Obligations.MaskHelpersTouchOnlyTheMask : Prop :=
  ∀ (current mask : Byte) (p : Pin),
    bit (applyMask current mask) p = (if bit mask p then true else bit current p) ∧
    bit (clearMask current mask) p = (if bit mask p then false else bit current p)

/-- 40_signal.md R101: a signal's mask has exactly one bit set, at the signal's position; with distinct positions the mapping is
injective and the masks are pairwise disjoint. -/
def Obligations.SignalMasksAreSingleDisjointBits : Prop :=
  ∀ params : Params,
    (∀ sig, maskOf params sig = 1#8 <<< (params.wiring.pos sig).val ∧ maskOf params sig ≠ 0#8 ∧
      ∀ p, bit (maskOf params sig) p = decide (p = params.wiring.pos sig)) ∧
    (params.wiring.distinct = true → ∀ a b, a ≠ b →
      maskOf params a ≠ maskOf params b ∧ maskOf params a &&& maskOf params b = 0#8)

/-! ### Micro-steps -/

/-- 40_signal.md R104, line 1: a read half latches its register, marks it in flight, moves the cursor by one, and changes nothing
else. The split of a masked update into halves is the spec's decision D9. -/
def Obligations.ReadHalfLatchesItsRegister : Prop :=
  ∀ (i : Instr) (s : State) (r : Reg), (microSteps i)[(s.ctx s.active).j]? = some (.readHalf r) →
    exec i s = .next (s.setCtx s.active { s.ctx s.active with
      latch := s.readReg r, inflight := some r, j := (s.ctx s.active).j + 1 })

/-- 40_signal.md R104, line 2: a write half writes the masked latch with the register's write effect, marks Race where the other
context is in flight on the register, FlagLoss for a write to IFG and Contention for a write to DIR or OUT (10_state.md R32, R45),
and lands; and where the latch still holds the register, exactly the mask's bits change. The halves and the marks are the spec's
decisions D9, D18, D25. -/
def Obligations.WriteHalfPutsTheMaskedLatchBack : Prop :=
  ∀ (i : Instr) (s : State) (r : Reg) (f : MaskFn) (sig : Signal),
    (microSteps i)[(s.ctx s.active).j]? = some (.writeHalf r f sig) →
    ∃ t, exec i s = .next t ∧
      (r ≠ .ifg → t.readReg r = maskFn f (s.ctx s.active).latch (maskOf s.params sig)) ∧
      (r = .ifg → t.ifg = ifgWritten s.params.ifgWriteOne s.ifg
        (maskFn f (s.ctx s.active).latch (maskOf s.params sig))) ∧
      (∀ q, t.race.has q = (s.race.has q || decide (q = r ∧ (s.ctx s.active.other).inflight = some r))) ∧
      (∀ p : Pin, onPin t.flagLoss p = (onPin s.flagLoss p || decide (r = .ifg ∧
        bit (maskFn f (s.ctx s.active).latch (maskOf s.params sig)) p = false ∧
        bit (maskOf s.params sig) p = false ∧ bit s.ifg p = true))) ∧
      (r = .dir ∨ r = .out → ∀ p : Pin, onPin t.contention p =
        (onPin s.contention p || opposed (bit t.dir p) (bit t.out p) (onPin s.ext p))) ∧
      (r ≠ .dir → r ≠ .out → t.contention = s.contention) ∧
      (t.ctx s.active).inflight = none ∧
      ((s.ctx s.active).latch = s.readReg r → ∀ p,
        bit (t.readReg r) p = if p = s.params.wiring.pos sig then decide (f = .apply) else bit (s.readReg r) p)

/-- 40_signal.md R105, 41_buspins.md R130 step 1: `reset_to_idle` starts with a full write of DIR, which marks Race where the
other context is in flight on DIR, and no Contention, for it releases every pin (10_state.md R32). The marks are the spec's decision
D25; lines and edges are its D18, D21. -/
def Obligations.ResetToIdleWritesAllOfDir : Prop :=
  ∀ s : State, AtStart s →
    ∃ t, exec .resetToIdle s = .next t ∧ t.dir = 0#8 ∧
      (∀ q, t.race.has q = (s.race.has q || decide (q = .dir ∧ (s.ctx s.active.other).inflight = some .dir))) ∧
      t.out = s.out ∧ t.ie = s.ie ∧ t.ies = s.ies ∧ FlagsFromEdges s t ∧ LinesSettled t ∧
      t.contention = s.contention ∧ SameOutside s t ∧ SameControl s t ∧ (t.ctx s.active).j = 1

/-! ### The Signal primitives, each with no step of another agent between its halves -/

/-- 40_signal.md R110: `drive_high s` sets the signal's output bit and no other bit of OUT. The absence of another agent's step
between the halves is the premise of R116, which the spec derives. -/
def Obligations.DriveHighSetsTheOutputBit : Prop :=
  ∀ (sig : Signal) (s : State), AtStart s →
    ∃ t₁ t, exec (.prim .driveHigh sig) s = .next t₁ ∧ exec (.prim .driveHigh sig) t₁ = .next t ∧
      t.out = s.out ||| maskOf s.params sig ∧ t.dir = s.dir ∧ FlagsFromEdges s t ∧ BusCommandFrame s t

/-- 40_signal.md R111: `drive_low s` clears the signal's output bit and no other bit of OUT. The absence of another agent's step
between the halves is the premise of R116, which the spec derives. -/
def Obligations.DriveLowClearsTheOutputBit : Prop :=
  ∀ (sig : Signal) (s : State), AtStart s →
    ∃ t₁ t, exec (.prim .driveLow sig) s = .next t₁ ∧ exec (.prim .driveLow sig) t₁ = .next t ∧
      t.out = s.out &&& ~~~maskOf s.params sig ∧ t.dir = s.dir ∧ FlagsFromEdges s t ∧ BusCommandFrame s t

/-- 40_signal.md R112: `release s` clears the signal's direction bit and no other bit of DIR, and keeps OUT. The absence of
another agent's step between the halves is the premise of R116, which the spec derives. -/
def Obligations.ReleaseClearsTheDirectionBit : Prop :=
  ∀ (sig : Signal) (s : State), AtStart s →
    ∃ t₁ t, exec (.prim .release sig) s = .next t₁ ∧ exec (.prim .release sig) t₁ = .next t ∧
      t.dir = s.dir &&& ~~~maskOf s.params sig ∧ t.out = s.out ∧ FlagsFromEdges s t ∧ BusCommandFrame s t

/-- 40_signal.md R113: `configure_output s` sets the signal's direction bit and no other bit of DIR, and keeps OUT. The absence of
another agent's step between the halves is the premise of R116, which the spec derives. -/
def Obligations.ConfigureOutputSetsTheDirectionBit : Prop :=
  ∀ (sig : Signal) (s : State), AtStart s →
    ∃ t₁ t, exec (.prim .configureOutput sig) s = .next t₁ ∧ exec (.prim .configureOutput sig) t₁ = .next t ∧
      t.dir = s.dir ||| maskOf s.params sig ∧ t.out = s.out ∧ FlagsFromEdges s t ∧ BusCommandFrame s t

/-- 40_signal.md R106, R114, R115: `read_high s` and `read_low s` return the signal's line level and its negation, at one sample;
nothing but the result and the cursor changes. That a read of IN shows the level at its own step is the spec's decision D20
(10_state.md R27; log entry 17); R115 is derived by the spec. -/
def Obligations.ReadsReturnTheLineLevel : Prop :=
  ∀ (sig : Signal) (s : State), AtStart s →
    exec (.prim .readHigh sig) s = .next (s.setCtx s.active { s.ctx s.active with
      res := some (bit s.lvl (s.params.wiring.pos sig)), k := (s.ctx s.active).k + 1, j := 0 }) ∧
    exec (.prim .readLow sig) s = .next (s.setCtx s.active { s.ctx s.active with
      res := some (!bit s.lvl (s.params.wiring.pos sig)), k := (s.ctx s.active).k + 1, j := 0 })

/-- 40_signal.md R117, with its no-contention premise (90_conflicts.md C3): on an output whose remote side does not oppose, a
drive is read back. R117 is derived by the spec; its no-contention premise is 90_conflicts.md C3. -/
def Obligations.DrivenLevelIsReadBack : Prop :=
  ∀ (sig : Signal) (s : State), AtStart s → bit s.dir (s.params.wiring.pos sig) = true →
    (onPin s.ext (s.params.wiring.pos sig) ≠ .low → ∃ t u, runAlone (.prim .driveHigh sig) s = .next t ∧
      runAlone (.prim .readHigh sig) t = .next u ∧ (u.ctx s.active).res = some true) ∧
    (onPin s.ext (s.params.wiring.pos sig) ≠ .high → ∃ t u, runAlone (.prim .driveLow sig) s = .next t ∧
      runAlone (.prim .readLow sig) t = .next u ∧ (u.ctx s.active).res = some true)

/-! ### The composites, each with no step of another agent in between -/

/-- 41_buspins.md R130, R139: `reset_to_idle` makes every pin an input, selects the falling edge of A_CLK and arms it; OUT stays;
A_CLK's flag is clear at the end where the edge select did not change. The polarities of IE and IES and the spurious flag are the
spec's decisions D3, D4, D7; R139 is derived by the spec. -/
def Obligations.ResetToIdleArmsTheClockInterrupt : Prop :=
  ∀ s : State, AtStart s →
    ∃ t, runAlone .resetToIdle s = .next t ∧ t.dir = 0#8 ∧ t.out = s.out ∧
      t.ies = s.ies ||| maskOf s.params .aClk ∧ t.ie = s.ie ||| maskOf s.params .aClk ∧
      (bit s.ies (s.params.wiring.pos .aClk) = true → bit t.ifg (s.params.wiring.pos .aClk) = false) ∧
      (∀ p, p ≠ s.params.wiring.pos .aClk → bit s.ifg p = true → bit t.ifg p = true) ∧
      t.gie = s.gie ∧ (t.ctx s.active).res = (s.ctx s.active).res ∧ (t.ctx s.active).inflight = none ∧
      t.flagLoss = s.flagLoss ∧ SameOutside s t ∧ LinesSettled t ∧ CommandDone s t

/-- 41_buspins.md R131, R132: `disable_clock_interrupt` and `enable_clock_interrupt` clear and set the enable bit of A_CLK; no
other bit of any register and no line changes. The polarity of IE is the spec's decision D3; R139 is derived by the spec. -/
def Obligations.ClockInterruptIsDisabledAndEnabled : Prop :=
  ∀ s : State, AtStart s →
    (∃ t₁ t, exec .disableClockInterrupt s = .next t₁ ∧ exec .disableClockInterrupt t₁ = .next t ∧
      t.ie = s.ie &&& ~~~maskOf s.params .aClk ∧ t.dir = s.dir ∧ t.out = s.out ∧ t.ies = s.ies ∧ t.ifg = s.ifg ∧
      SameLines s t ∧ SameOutside s t ∧ SameControl s t ∧ SameRaceBut .ie s t ∧
      (t.ctx s.active).inflight = none ∧ CommandDone s t) ∧
    (∃ t₁ t, exec .enableClockInterrupt s = .next t₁ ∧ exec .enableClockInterrupt t₁ = .next t ∧
      t.ie = s.ie ||| maskOf s.params .aClk ∧ t.dir = s.dir ∧ t.out = s.out ∧ t.ies = s.ies ∧ t.ifg = s.ifg ∧
      SameLines s t ∧ SameOutside s t ∧ SameControl s t ∧ SameRaceBut .ie s t ∧
      (t.ctx s.active).inflight = none ∧ CommandDone s t)

/-- 41_buspins.md R133: `acknowledge_clock_interrupt`, with no edge between its halves, clears the flag of A_CLK and leaves every
other flag, for either effect of writing a one; no flag is lost. What writing a one does is open (D5); R139 is derived by the
spec. -/
def Obligations.AcknowledgeClearsTheClockFlag : Prop :=
  ∀ s : State, AtStart s →
    ∃ t₁ t, exec .acknowledgeClockInterrupt s = .next t₁ ∧ exec .acknowledgeClockInterrupt t₁ = .next t ∧
      t.ifg = s.ifg &&& ~~~maskOf s.params .aClk ∧ t.dir = s.dir ∧ t.out = s.out ∧ t.ie = s.ie ∧ t.ies = s.ies ∧
      SameLines s t ∧ SameOutside s t ∧ SameControl s t ∧ SameRaceBut .ifg s t ∧
      (t.ctx s.active).inflight = none ∧ CommandDone s t

/-- 41_buspins.md R134: `bus_a_idle` sets both bus-A output bits and releases both lines. R139 is derived by the spec; the order
of the parts is its decision D10. -/
def Obligations.BusAIdleReleasesBothLines : Prop :=
  ∀ s : State, AtStart s →
    ∃ t, runAlone .busAIdle s = .next t ∧
      t.out = s.out ||| (maskOf s.params .aClk ||| maskOf s.params .aData) ∧
      t.dir = s.dir &&& ~~~(maskOf s.params .aClk ||| maskOf s.params .aData) ∧ BusCommandFrame s t

/-- 41_buspins.md R135, 90_conflicts.md C1: `bus_a_inhibit` leaves the clock an output at 0 and the data an input with its output
bit 1, from every start state. R139 is derived by the spec; the order of the parts is its decision D10. That the data output bit
is written is the spec's decision D11 (C1). -/
def Obligations.BusAInhibitHoldsTheClockLow : Prop :=
  ∀ s : State, AtStart s → s.params.wiring.distinct = true →
    ∃ t, runAlone .busAInhibit s = .next t ∧
      t.out = (s.out &&& ~~~maskOf s.params .aClk) ||| maskOf s.params .aData ∧
      t.dir = (s.dir ||| maskOf s.params .aClk) &&& ~~~maskOf s.params .aData ∧
      bit t.out (s.params.wiring.pos .aClk) = false ∧ bit t.dir (s.params.wiring.pos .aClk) = true ∧
      bit t.out (s.params.wiring.pos .aData) = true ∧ bit t.dir (s.params.wiring.pos .aData) = false ∧
      BusCommandFrame s t

/-- 41_buspins.md R136: `bus_a_prepare_send` releases the clock and drives the data line high. R139 is derived by the spec; the
order of the parts is its decision D10. -/
def Obligations.BusAPrepareSendTakesTheDataLine : Prop :=
  ∀ s : State, AtStart s → s.params.wiring.distinct = true →
    ∃ t, runAlone .busAPrepareSend s = .next t ∧
      t.out = s.out ||| (maskOf s.params .aClk ||| maskOf s.params .aData) ∧
      t.dir = (s.dir &&& ~~~maskOf s.params .aClk) ||| maskOf s.params .aData ∧
      bit t.dir (s.params.wiring.pos .aClk) = false ∧ bit t.dir (s.params.wiring.pos .aData) = true ∧
      BusCommandFrame s t

/-- 41_buspins.md R137: `bus_b_transmit` drives both bus-B lines high. R139 is derived by the spec; the order of the parts is its
decision D10. -/
def Obligations.BusBTransmitDrivesBothLines : Prop :=
  ∀ s : State, AtStart s →
    ∃ t, runAlone .busBTransmit s = .next t ∧
      t.out = s.out ||| (maskOf s.params .bClk ||| maskOf s.params .bData) ∧
      t.dir = s.dir ||| (maskOf s.params .bClk ||| maskOf s.params .bData) ∧ BusCommandFrame s t

/-- 41_buspins.md R138, 70_reset_and_hazards.md R256: `bus_b_receive` releases both bus-B lines and sets the data output bit; the
clock's output bit stays as it was. R139 is derived by the spec; the order of the parts is its decision D10. -/
def Obligations.BusBReceiveKeepsTheClockOutputBit : Prop :=
  ∀ s : State, AtStart s → s.params.wiring.distinct = true →
    ∃ t, runAlone .busBReceive s = .next t ∧
      t.out = s.out ||| maskOf s.params .bData ∧
      bit t.out (s.params.wiring.pos .bClk) = bit s.out (s.params.wiring.pos .bClk) ∧
      t.dir = s.dir &&& ~~~(maskOf s.params .bClk ||| maskOf s.params .bData) ∧ BusCommandFrame s t

/-- 42_host.md R170, R171: `eint` and `dint` set and clear the global enable; nothing else changes but the cursor. The two
commands are the spec's decision D14. -/
def Obligations.HostCommandsWriteTheGlobalEnable : Prop :=
  ∀ s : State, AtStart s →
    exec .eint s = .next ({ s with gie := true }.setCtx s.active { s.ctx s.active with k := (s.ctx s.active).k + 1, j := 0 }) ∧
    exec .dint s = .next ({ s with gie := false }.setCtx s.active { s.ctx s.active with k := (s.ctx s.active).k + 1, j := 0 })

/-! ### Frames, at every micro-step and from every state -/

/-- 40_signal.md R110, R111, R116: at each micro-step `drive_high` and `drive_low` write OUT only, and there change the signal's
own bit or put a latched bit back. R116 is derived by the spec. -/
def Obligations.OutputCommandsFrame : Prop :=
  ∀ (op : SignalOp) (sig : Signal) (s t : State), op = .driveHigh ∨ op = .driveLow → exec (.prim op sig) s = .next t →
    t.dir = s.dir ∧ t.ie = s.ie ∧ t.ies = s.ies ∧ FlagsFromEdges s t ∧ SameOutside s t ∧ SameControl s t ∧
      SameRaceBut .out s t ∧
      ∀ p, p ≠ s.params.wiring.pos sig → bit t.out p = bit s.out p ∨ bit t.out p = bit (s.ctx s.active).latch p

/-- 40_signal.md R112, R113, R116: at each micro-step `release` and `configure_output` write DIR only, and there change the
signal's own bit or put a latched bit back. R116 is derived by the spec. -/
def Obligations.DirectionCommandsFrame : Prop :=
  ∀ (op : SignalOp) (sig : Signal) (s t : State), op = .release ∨ op = .configureOutput →
    exec (.prim op sig) s = .next t →
    t.out = s.out ∧ t.ie = s.ie ∧ t.ies = s.ies ∧ FlagsFromEdges s t ∧ SameOutside s t ∧ SameControl s t ∧
      SameRaceBut .dir s t ∧
      ∀ p, p ≠ s.params.wiring.pos sig → bit t.dir p = bit s.dir p ∨ bit t.dir p = bit (s.ctx s.active).latch p

/-- 41_buspins.md R130 to R133, R139: at each micro-step the commands of the interrupt lifecycle leave OUT, the global enable and
the result; the three single-register ones leave DIR, IES and the lines, two of them the flags and the third the enables. R139 is
derived by the spec. -/
def Obligations.InterruptLifecycleFrame : Prop :=
  (∀ s t : State, exec .resetToIdle s = .next t →
    t.out = s.out ∧ t.gie = s.gie ∧ (t.ctx s.active).res = (s.ctx s.active).res ∧ SameOutside s t) ∧
  (∀ (i : Instr) (s t : State), i = .disableClockInterrupt ∨ i = .enableClockInterrupt → exec i s = .next t →
    t.dir = s.dir ∧ t.out = s.out ∧ t.ies = s.ies ∧ t.ifg = s.ifg ∧ SameLines s t ∧ SameOutside s t ∧
      SameControl s t ∧ SameRaceBut .ie s t) ∧
  (∀ s t : State, exec .acknowledgeClockInterrupt s = .next t →
    t.dir = s.dir ∧ t.out = s.out ∧ t.ie = s.ie ∧ t.ies = s.ies ∧ t.gie = s.gie ∧
      (t.ctx s.active).res = (s.ctx s.active).res ∧ SameLines s t ∧ SameOutside s t ∧ SameRaceBut .ifg s t)

/-- 41_buspins.md R134 to R139: at each micro-step the five bus-state composites leave the interrupt registers, the global enable,
the result and the FlagLoss marks; flags are set by edges only; a foreign bit of OUT or DIR is as it was or as it was latched.
R116 and R139 are derived by the spec. -/
def Obligations.BusStateCommandsFrame : Prop :=
  ∀ (i : Instr) (s t : State),
    i = .busAIdle ∨ i = .busAInhibit ∨ i = .busAPrepareSend ∨ i = .busBTransmit ∨ i = .busBReceive →
    exec i s = .next t →
    t.ie = s.ie ∧ t.ies = s.ies ∧ FlagsFromEdges s t ∧ SameOutside s t ∧ SameControl s t ∧
      (∀ r, r ≠ .dir → r ≠ .out → t.race.has r = s.race.has r) ∧
      ∀ p, bit (foreignMask s.params) p = true →
        (bit t.out p = bit s.out p ∨ bit t.out p = bit (s.ctx s.active).latch p) ∧
        (bit t.dir p = bit s.dir p ∨ bit t.dir p = bit (s.ctx s.active).latch p)

/-! ### Registers, lines and flags -/

/-- 10_state.md R25: a write to IFG, bit by bit. The effect of a one is an open parameter (D5). -/
def Obligations.WritingTheFlagRegister : Prop :=
  ∀ (s : State) (v : Byte) (p : Pin),
    bit (s.writeReg .ifg v).ifg p =
      if bit v p = false then false
      else if s.params.ifgWriteOne = .sets then true
      else bit s.ifg p

/-- 10_state.md R24: a write to IES assigns it, clears no flag, sets no flag of a bit it does not change, and may or may not set
the flag of a bit it changes: each draw decides. The spurious flag is the spec's decision D7; the draw is a free value (log entry
3), and the statement holds for each. -/
def Obligations.WritingTheEdgeSelect : Prop :=
  ∀ (s : State) (v drawn : Byte) (ds : List Byte),
    ({ s with draws := drawn :: ds }.writeReg .ies v).ies = v ∧
    ∀ p, bit ({ s with draws := drawn :: ds }.writeReg .ies v).ifg p =
      if bit s.ies p = bit v p then bit s.ifg p else (bit s.ifg p || bit drawn p)

/-- 10_state.md R27, 20_memory.md R61: the bus spelling of an access is the access by name; IN reads the lines; a write to IN, and
an access at any other address, is refused. Addresses and refusals are the spec's decisions D2, D23; no command makes such an
access (log entry 21). -/
def Obligations.BusAccessesAreRegisterAccesses : Prop :=
  ∀ (s : State), s.params.regAddrs.distinct = true →
    (∀ (r : Reg) (v : Byte), s.busRead (s.params.regAddrs.addr r) = (some (s.readReg r), s) ∧
      s.busWrite (s.params.regAddrs.addr r) v = s.writeReg r v) ∧
    s.readReg .inp = s.lvl ∧
    (∀ v, (s.writeReg .inp v) = { s with refused := some .writeToIN }) ∧
    (∀ (x : Addr) (v : Byte), (∀ r, s.params.regAddrs.addr r ≠ x) →
      s.busRead x = (none, { s with refused := some .notARegister }) ∧
      s.busWrite x v = { s with refused := some .notARegister })

/-- 10_state.md R31 to R34: a step of the outside changes one pin's drive within `extCap`; every line R32 determines is at its
level; a contended pin is marked; each flag is as before or set by the selected edge; registers and contexts stay. Lines, drives
and edges are the spec's decisions D4, D6, D18, D19, D21; the schedule is log entry 2. -/
def Obligations.OutsideStepDrivesOnePin : Prop :=
  ∀ (s : State) (p : Pin) (e : ExtDrive), s.refused = none → s.nextTurn = .drive p e →
    (onPin s.params.extCap p).allows e = true →
    ∃ t, step s = .next t ∧ t.ext = s.ext.set p e ∧ LinesSettled t ∧ FlagsFromEdges s t ∧
      (∀ q : Pin, onPin t.contention q = (onPin s.contention q || opposed (bit s.dir q) (bit s.out q) (onPin t.ext q))) ∧
      t.dir = s.dir ∧ t.out = s.out ∧ t.ie = s.ie ∧ t.ies = s.ies ∧ t.gie = s.gie ∧ t.inIsr = s.inIsr ∧
      t.fg = s.fg ∧ t.isr = s.isr ∧ t.race = s.race ∧ t.flagLoss = s.flagLoss ∧ t.refused = none

/-- 10_state.md R32 to R34: at a re-draw an undetermined line takes whatever level is drawn; every determined line is at its
level; exactly the opposed pins are marked; each flag is as before or set by the selected edge; registers, drives and contexts stay.
Undetermined levels are the spec's decision D18; the draw is a free value (log entry 3); that a re-draw recomputes all lines is log
entry 11. -/
def Obligations.UndeterminedLineTakesAnyLevel : Prop :=
  ∀ (s : State) (p : Pin) (drawn : Byte), s.refused = none → s.levelAt p = none →
    ∃ t, step { s with turns := [.redraw p], draws := [drawn] } = .next t ∧ bit t.lvl p = bit drawn p ∧
      LinesSettled t ∧ FlagsFromEdges s t ∧
      (∀ q : Pin, onPin t.contention q = (onPin s.contention q || opposed (bit s.dir q) (bit s.out q) (onPin s.ext q))) ∧
      t.ext = s.ext ∧ t.dir = s.dir ∧ t.out = s.out ∧ t.ie = s.ie ∧ t.ies = s.ies ∧ t.gie = s.gie ∧
      t.inIsr = s.inIsr ∧ t.fg = s.fg ∧ t.isr = s.isr ∧ t.race = s.race ∧ t.flagLoss = s.flagLoss ∧ t.refused = none

/-- 70_reset_and_hazards.md R253: `bus_a_inhibit` on a high clock line that nobody drives high makes a falling edge of its own,
which sets the clock's flag where the falling edge is selected; and the request rises where the clock is armed. That the port's
own edges count is the spec's decision D21; R253 is derived by the spec. -/
def Obligations.InhibitMakesItsOwnFallingEdge : Prop :=
  ∀ s : State, AtStart s →
    bit s.lvl (s.params.wiring.pos .aClk) = true → bit s.ies (s.params.wiring.pos .aClk) = true →
    onPin s.ext (s.params.wiring.pos .aClk) ≠ .high →
    (s.params.flagNeedsEnable = false ∨ bit s.ie (s.params.wiring.pos .aClk) = true) →
    ∃ t, runAlone .busAInhibit s = .next t ∧ bit t.ifg (s.params.wiring.pos .aClk) = true ∧
      (bit s.ie (s.params.wiring.pos .aClk) = true → t.irq = true)

/-! ### Interrupts -/

/-- 60_exceptions.md R212, R213: where the entry is enabled and chosen, the step is the entry: the handler starts at its first
word with nothing in flight and no result, the global enable falls, and all else stays, the flags and the foreground among it. The
entry is the spec's decision D15, D16; that t_ISR stays is log entry 7; the schedule is log entry 2. -/
def Obligations.InterruptEntry : Prop :=
  ∀ s : State, s.gie = true → s.ie &&& s.ifg ≠ 0#8 → s.inIsr = false → s.refused = none → s.nextTurn = .interrupt →
    step s = .next { s.afterTurn with
      inIsr := true, gie := false, isr := { s.isr with k := 0, j := 0, res := none, inflight := none } }

/-- 60_exceptions.md R215: at the end of the handler's program its next step is the return; and the entry is enabled again at once
exactly where the request is still up. The return is the spec's decision D16. -/
def Obligations.InterruptReturn : Prop :=
  ∀ s : State, s.inIsr = true → s.isr.k = s.isrProgram.length → s.isr.j = 0 → s.refused = none → s.turn = .context →
    ∃ t, step s = .next t ∧ t = { s.afterTurn with inIsr := false, gie := true } ∧ t.entryEnabled = s.irq

/-- 60_exceptions.md R216: no step taken in the handler is an entry, also after an `eint` there. No nesting is the spec's decision
D16. -/
def Obligations.NoNestedEntry : Prop :=
  ∀ s : State, s.inIsr = true →
    s.turn ≠ .interrupt ∧ ∀ t, exec .eint s = .next t → t.gie = true ∧ t.inIsr = true ∧ t.turn ≠ .interrupt

/-- 60_exceptions.md R210: the request is up exactly where some pin is both enabled and flagged, and `gie` masks it. That the
pins' requests are OR-ed is the spec's decision D17. -/
def Obligations.RequestIsAnEnabledFlag : Prop :=
  ∀ s : State, (s.irq = true ↔ ∃ p, bit s.ie p = true ∧ bit s.ifg p = true) ∧
    (s.gie = false → s.entryEnabled = false)

/-- 70_reset_and_hazards.md R241: after reset the foreground runs with interrupts disabled; from such a state no step is an entry,
and interrupts get enabled by `eint` only. gie = 0 after reset is the spec's decision D27. -/
def Obligations.NoInterruptBeforeEint : Prop :=
  State.reset.inIsr = false ∧ State.reset.gie = false ∧
  ∀ s t : State, s.inIsr = false → s.gie = false → step s = .next t →
    t.inIsr = false ∧ (t.gie = true → s.move = .run .eint s.afterTurn)

/-! ### Refusal and the end of a run -/

/-- 10_state.md R47, 60_exceptions.md R201: a reserved word at the cursor raises its refusal; from then no agent takes a step and
the run is not final; reset refuses nothing. Refusals are the spec's decision D13; that the raising step is a next state is log
entry 14. -/
def Obligations.ReservedWordStopsEveryAgent : Prop :=
  (∀ (s : State) (w : Word) (r : RefuseReason), s.refused = none → s.turn = .context → s.fetch = some w →
    decode w = .error r → step s = .next { s.afterTurn with refused := some r }) ∧
  (∀ (s : State) (r : RefuseReason), s.refused = some r → step s = .refused (.halted r) ∧ s.final = false) ∧
  State.reset.refused = none

/-- 42_host.md R173: a final state is one whose foreground is done, with no handler running, nothing in flight and nothing
refused; there the contexts' turn changes nothing that is observed. The end of a run is the spec's decision D26; the idle step is
log entry 13. -/
def Obligations.FinalStateIsQuiet : Prop :=
  ∀ s : State,
    (s.final = true ↔ s.fg.k = s.fgProgram.length ∧ s.fg.j = 0 ∧ s.inIsr = false ∧ s.fg.inflight = none ∧
      s.isr.inflight = none ∧ s.refused = none) ∧
    (s.final = true → s.turn = .context → ∃ t, step s = .next t ∧ t.observe = s.observe ∧ t.final = true)

/-! ### Reset -/

/-- 10_state.md R48, 70_reset_and_hazards.md R240: what reset leaves, for every draw of the registers, drives, levels and latches.
The draws are free values (log entries 5, 6, 7), by the spec's decisions D8, D19, D27; the statement holds for each. -/
def Obligations.ResetValues : Prop :=
  ∀ (params : Params) (isr : List Word) (regs : Reg → Byte) (ext : Vector ExtDrive 8) (levels : Byte)
    (latch : Context → Byte),
    let s := State.resetWith params isr regs ext levels latch
    s.gie = false ∧ s.inIsr = false ∧ s.fg.k = 0 ∧ s.fg.j = 0 ∧ s.fg.inflight = none ∧ s.isr.inflight = none ∧
      s.fg.res = none ∧ s.isr.res = none ∧ s.refused = none ∧ (∀ r, s.race.has r = false) ∧
      (∀ p : Pin, onPin s.flagLoss p = false) ∧
      (∀ p : Pin, onPin s.contention p = opposed (bit s.dir p) (bit s.out p) (onPin s.ext p)) ∧
      (∀ r, r ≠ .inp → s.readReg r = regs r) ∧ s.ext = ext ∧ LinesSettled s

/-- The machine after reset meets every invariant below, and its parameters are well-formed (00_scope.md R9; 10_state.md R31). The
reset state's free values are log entries 4 to 8; the statement holds for each. -/
def Obligations.ResetMeetsTheInvariants : Prop :=
  State.reset.params.wellFormed = true ∧ LinesSettled State.reset ∧ DrivesWithinCap State.reset ∧
    Sequenced State.reset ∧ LatchesKeep State.reset ∧ LatchedFlagsHold State.reset

/-! ### Invariants: from every state that meets them, whatever the schedule and the draws -/

/-- 10_state.md R32: every step keeps every determined line at its level. The rule is the spec's decision D18. -/
def Obligations.StepKeepsLinesSettled : Prop :=
  ∀ s t : State, LinesSettled s → step s = .next t → LinesSettled t

/-- 10_state.md R31: every step keeps the external drives within `extCap`, and only a step of the outside changes one. What the
remote side may do is the spec's decision D19. -/
def Obligations.StepKeepsDrivesWithinCap : Prop :=
  ∀ s t : State, step s = .next t →
    (DrivesWithinCap s → DrivesWithinCap t) ∧ (t.ext ≠ s.ext → ∃ p e, s.turn = .drive p e ∧ t.ext = s.ext.set p e)

/-- 10_state.md R39, R40, R213: every step keeps each running context at a micro-step of its command, in flight exactly before a
write half; so no step ever faults. Cursor and latch are the spec's decisions D9, D24; the unreachable fault is log entry 12. -/
def Obligations.StepKeepsSequencing : Prop :=
  ∀ s : State, Sequenced s → (∀ t, step s = .next t → Sequenced t) ∧ ∀ f, step s ≠ .fault f

/-- 40_signal.md R116, 60_exceptions.md R211: under every interleaving no step changes a foreign bit of OUT, nor a bit of IE or
IES other than A_CLK's. A whole-machine consequence the model draws from these rules (R116 is derived by the spec). -/
def Obligations.NoStepChangesKeptBits : Prop :=
  ∀ s t : State, Sequenced s → LatchesKeep s → step s = .next t →
    LatchesKeep t ∧ t.out &&& foreignMask s.params = s.out &&& foreignMask s.params ∧
      t.ie &&& ~~~maskOf s.params .aClk = s.ie &&& ~~~maskOf s.params .aClk ∧
      t.ies &&& ~~~maskOf s.params .aClk = s.ies &&& ~~~maskOf s.params .aClk

/-- 70_reset_and_hazards.md R260: under every interleaving no masked update of IFG sets a flag: the duplicated flag is unreachable
with this command set, whatever `ifgWriteOne` is. R260 is derived by the spec. -/
def Obligations.NoUpdateSetsAFlagAgain : Prop :=
  ∀ s t : State, Sequenced s → LatchedFlagsHold s → step s = .next t →
    LatchedFlagsHold t ∧
    ∀ i f sig, s.move = .run i s.afterTurn →
      (microSteps i)[(s.ctx s.active).j]? = some (.writeHalf .ifg f sig) → ∀ p, bit t.ifg p = true → bit s.ifg p = true

/-- 10_state.md R25: a flag stays set until software clears it: only `acknowledge_clock_interrupt` and `reset_to_idle` do. A
whole-machine consequence the model draws from these rules. -/
def Obligations.FlagsStayUntilAcknowledged : Prop :=
  ∀ (s t : State) (p : Pin), step s = .next t → bit s.ifg p = true → bit t.ifg p = false →
    s.move = .run .acknowledgeClockInterrupt s.afterTurn ∨ s.move = .run .resetToIdle s.afterTurn

/-- 10_state.md R44, 70_reset_and_hazards.md R250, R251: a Race mark is set only by the handler, writing a register the preempted
foreground is in flight on; so none is ever set where no interrupt is taken. The marks are the spec's decision D25; R250 and R251
are derived by the spec. -/
def Obligations.RaceNeedsAPreemptedUpdate : Prop :=
  ∀ (s t : State) (r : Reg), Sequenced s → step s = .next t → s.race.has r = false → t.race.has r = true →
    s.inIsr = true ∧ s.fg.inflight = some r

/-- 10_state.md R43: no step clears a mark. The marks are the spec's decision D25. -/
def Obligations.MarksAreSticky : Prop :=
  ∀ s t : State, step s = .next t → MarksKept s t

/-- 00_scope.md R8, 10_state.md R29, R38: no step writes a program or a parameter. Programs as launch inputs are the spec's
decisions D12, D15; that State carries the parameters is log entry 4. -/
def Obligations.ProgramsAndParametersAreNeverWritten : Prop :=
  ∀ s t : State, step s = .next t →
    t.params = s.params ∧ t.fgProgram = s.fgProgram ∧ t.isrProgram = s.isrProgram

/-- 10_state.md R37, 60_exceptions.md R213: while the handler is active the foreground's state does not change. The contexts are
the spec's decisions D15, D16. -/
def Obligations.HandlerLeavesTheForegroundInPlace : Prop :=
  ∀ s t : State, s.inIsr = true → step s = .next t → t.fg = s.fg

/-! ### The rest of a write half -/

/-- 40_signal.md R104; 10_state.md R21 to R25, R32, R34: what a write half does besides writing its register and setting the marks,
for every command that has one: no other register changes but IFG; after DIR or OUT the lines are settled and a flag is set by the
selected edge only; IE leaves the flags; after IES an unchanged bit keeps its flag, and a changed bit's flag is as before or set, as
the draw decides; the lines move after DIR and OUT only. The spurious flag is the spec's decision D7, lines and edges its D18, D21;
the draw is a free value (log entry 3), and the statement holds for each. -/
def Obligations.WriteHalfLeavesAllElse : Prop :=
  ∀ (i : Instr) (s : State) (r : Reg) (f : MaskFn) (sig : Signal),
    (microSteps i)[(s.ctx s.active).j]? = some (.writeHalf r f sig) →
    ∃ t, exec i s = .next t ∧
      (∀ q, q ≠ r → q ≠ .ifg → q ≠ .inp → t.readReg q = s.readReg q) ∧
      (r = .dir ∨ r = .out → FlagsFromEdges s t ∧ LinesSettled t) ∧
      (r = .ie → t.ifg = s.ifg) ∧
      (r = .ies → ∀ p, bit t.ifg p =
        if bit t.ies p = bit s.ies p then bit s.ifg p else (bit s.ifg p || bit s.nextDraw p)) ∧
      (r ≠ .dir → r ≠ .out → SameLines s t) ∧
      t.gie = s.gie ∧ (t.ctx s.active).res = (s.ctx s.active).res ∧
      (t.ctx s.active).latch = (s.ctx s.active).latch ∧ SameOutside s t

end
end

