-- ==== Sys2Proof/Laws/State.lean ====
section
/-! SUPPORT. The small lemmas of State's updates: one per field and update, so that no proof unfolds a record update. -/

namespace Sys2Proof.Machine

variable (s : State)

/-! `afterDraw` -/

@[simp] theorem afterDraw_params : s.afterDraw.params = s.params := rfl
@[simp] theorem afterDraw_fgProgram : s.afterDraw.fgProgram = s.fgProgram := rfl
@[simp] theorem afterDraw_isrProgram : s.afterDraw.isrProgram = s.isrProgram := rfl
@[simp] theorem afterDraw_dir : s.afterDraw.dir = s.dir := rfl
@[simp] theorem afterDraw_out : s.afterDraw.out = s.out := rfl
@[simp] theorem afterDraw_ie : s.afterDraw.ie = s.ie := rfl
@[simp] theorem afterDraw_ies : s.afterDraw.ies = s.ies := rfl
@[simp] theorem afterDraw_ifg : s.afterDraw.ifg = s.ifg := rfl
@[simp] theorem afterDraw_lvl : s.afterDraw.lvl = s.lvl := rfl
@[simp] theorem afterDraw_ext : s.afterDraw.ext = s.ext := rfl
@[simp] theorem afterDraw_gie : s.afterDraw.gie = s.gie := rfl
@[simp] theorem afterDraw_inIsr : s.afterDraw.inIsr = s.inIsr := rfl
@[simp] theorem afterDraw_fg : s.afterDraw.fg = s.fg := rfl
@[simp] theorem afterDraw_isr : s.afterDraw.isr = s.isr := rfl
@[simp] theorem afterDraw_race : s.afterDraw.race = s.race := rfl
@[simp] theorem afterDraw_contention : s.afterDraw.contention = s.contention := rfl
@[simp] theorem afterDraw_flagLoss : s.afterDraw.flagLoss = s.flagLoss := rfl
@[simp] theorem afterDraw_refused : s.afterDraw.refused = s.refused := rfl
@[simp] theorem afterDraw_draws : s.afterDraw.draws = s.draws.tail := rfl
@[simp] theorem afterDraw_drawCount : s.afterDraw.drawCount = s.drawCount + 1 := rfl
@[simp] theorem afterDraw_turns : s.afterDraw.turns = s.turns := rfl
@[simp] theorem afterDraw_turnCount : s.afterDraw.turnCount = s.turnCount := rfl
@[simp] theorem afterDraw_ctx (d : Context) : s.afterDraw.ctx d = s.ctx d := by cases d <;> rfl
@[simp] theorem afterDraw_active : s.afterDraw.active = s.active := rfl
@[simp] theorem afterDraw_program (d : Context) : s.afterDraw.program d = s.program d := by cases d <;> rfl
@[simp] theorem afterDraw_readReg (q : Reg) : s.afterDraw.readReg q = s.readReg q := by cases q <;> rfl
@[simp] theorem afterDraw_levelAt (p : Pin) : s.afterDraw.levelAt p = s.levelAt p := rfl

/-! `raise` -/

@[simp] theorem raise_params (r : RefuseReason) : (s.raise r).params = s.params := rfl
@[simp] theorem raise_fgProgram (r : RefuseReason) : (s.raise r).fgProgram = s.fgProgram := rfl
@[simp] theorem raise_isrProgram (r : RefuseReason) : (s.raise r).isrProgram = s.isrProgram := rfl
@[simp] theorem raise_dir (r : RefuseReason) : (s.raise r).dir = s.dir := rfl
@[simp] theorem raise_out (r : RefuseReason) : (s.raise r).out = s.out := rfl
@[simp] theorem raise_ie (r : RefuseReason) : (s.raise r).ie = s.ie := rfl
@[simp] theorem raise_ies (r : RefuseReason) : (s.raise r).ies = s.ies := rfl
@[simp] theorem raise_ifg (r : RefuseReason) : (s.raise r).ifg = s.ifg := rfl
@[simp] theorem raise_lvl (r : RefuseReason) : (s.raise r).lvl = s.lvl := rfl
@[simp] theorem raise_ext (r : RefuseReason) : (s.raise r).ext = s.ext := rfl
@[simp] theorem raise_gie (r : RefuseReason) : (s.raise r).gie = s.gie := rfl
@[simp] theorem raise_inIsr (r : RefuseReason) : (s.raise r).inIsr = s.inIsr := rfl
@[simp] theorem raise_fg (r : RefuseReason) : (s.raise r).fg = s.fg := rfl
@[simp] theorem raise_isr (r : RefuseReason) : (s.raise r).isr = s.isr := rfl
@[simp] theorem raise_race (r : RefuseReason) : (s.raise r).race = s.race := rfl
@[simp] theorem raise_contention (r : RefuseReason) : (s.raise r).contention = s.contention := rfl
@[simp] theorem raise_flagLoss (r : RefuseReason) : (s.raise r).flagLoss = s.flagLoss := rfl
@[simp] theorem raise_refused (r : RefuseReason) : (s.raise r).refused = some r := rfl
@[simp] theorem raise_draws (r : RefuseReason) : (s.raise r).draws = s.draws := rfl
@[simp] theorem raise_drawCount (r : RefuseReason) : (s.raise r).drawCount = s.drawCount := rfl
@[simp] theorem raise_turns (r : RefuseReason) : (s.raise r).turns = s.turns := rfl
@[simp] theorem raise_turnCount (r : RefuseReason) : (s.raise r).turnCount = s.turnCount := rfl
@[simp] theorem raise_ctx (r : RefuseReason) (d : Context) : (s.raise r).ctx d = s.ctx d := by cases d <;> rfl
@[simp] theorem raise_active (r : RefuseReason) : (s.raise r).active = s.active := rfl
@[simp] theorem raise_program (r : RefuseReason) (d : Context) : (s.raise r).program d = s.program d := by cases d <;> rfl
@[simp] theorem raise_readReg (r : RefuseReason) (q : Reg) : (s.raise r).readReg q = s.readReg q := by cases q <;> rfl
@[simp] theorem raise_levelAt (r : RefuseReason) (p : Pin) : (s.raise r).levelAt p = s.levelAt p := rfl

/-! `markRace` -/

@[simp] theorem markRace_params (c : Context) (r : Reg) : (s.markRace c r).params = s.params := rfl
@[simp] theorem markRace_fgProgram (c : Context) (r : Reg) : (s.markRace c r).fgProgram = s.fgProgram := rfl
@[simp] theorem markRace_isrProgram (c : Context) (r : Reg) : (s.markRace c r).isrProgram = s.isrProgram := rfl
@[simp] theorem markRace_dir (c : Context) (r : Reg) : (s.markRace c r).dir = s.dir := rfl
@[simp] theorem markRace_out (c : Context) (r : Reg) : (s.markRace c r).out = s.out := rfl
@[simp] theorem markRace_ie (c : Context) (r : Reg) : (s.markRace c r).ie = s.ie := rfl
@[simp] theorem markRace_ies (c : Context) (r : Reg) : (s.markRace c r).ies = s.ies := rfl
@[simp] theorem markRace_ifg (c : Context) (r : Reg) : (s.markRace c r).ifg = s.ifg := rfl
@[simp] theorem markRace_lvl (c : Context) (r : Reg) : (s.markRace c r).lvl = s.lvl := rfl
@[simp] theorem markRace_ext (c : Context) (r : Reg) : (s.markRace c r).ext = s.ext := rfl
@[simp] theorem markRace_gie (c : Context) (r : Reg) : (s.markRace c r).gie = s.gie := rfl
@[simp] theorem markRace_inIsr (c : Context) (r : Reg) : (s.markRace c r).inIsr = s.inIsr := rfl
@[simp] theorem markRace_fg (c : Context) (r : Reg) : (s.markRace c r).fg = s.fg := rfl
@[simp] theorem markRace_isr (c : Context) (r : Reg) : (s.markRace c r).isr = s.isr := rfl
@[simp] theorem markRace_race (c : Context) (r : Reg) : (s.markRace c r).race = s.race.mark r (decide ((s.ctx c.other).inflight = some r)) := rfl
@[simp] theorem markRace_contention (c : Context) (r : Reg) : (s.markRace c r).contention = s.contention := rfl
@[simp] theorem markRace_flagLoss (c : Context) (r : Reg) : (s.markRace c r).flagLoss = s.flagLoss := rfl
@[simp] theorem markRace_refused (c : Context) (r : Reg) : (s.markRace c r).refused = s.refused := rfl
@[simp] theorem markRace_draws (c : Context) (r : Reg) : (s.markRace c r).draws = s.draws := rfl
@[simp] theorem markRace_drawCount (c : Context) (r : Reg) : (s.markRace c r).drawCount = s.drawCount := rfl
@[simp] theorem markRace_turns (c : Context) (r : Reg) : (s.markRace c r).turns = s.turns := rfl
@[simp] theorem markRace_turnCount (c : Context) (r : Reg) : (s.markRace c r).turnCount = s.turnCount := rfl
@[simp] theorem markRace_ctx (c : Context) (r : Reg) (d : Context) : (s.markRace c r).ctx d = s.ctx d := by cases d <;> rfl
@[simp] theorem markRace_active (c : Context) (r : Reg) : (s.markRace c r).active = s.active := rfl
@[simp] theorem markRace_program (c : Context) (r : Reg) (d : Context) : (s.markRace c r).program d = s.program d := by cases d <;> rfl
@[simp] theorem markRace_readReg (c : Context) (r : Reg) (q : Reg) : (s.markRace c r).readReg q = s.readReg q := by cases q <;> rfl
@[simp] theorem markRace_levelAt (c : Context) (r : Reg) (p : Pin) : (s.markRace c r).levelAt p = s.levelAt p := rfl

/-! `markFlagLoss` -/

@[simp] theorem markFlagLoss_params (r : Reg) (mask v : Byte) : (s.markFlagLoss r mask v).params = s.params := rfl
@[simp] theorem markFlagLoss_fgProgram (r : Reg) (mask v : Byte) : (s.markFlagLoss r mask v).fgProgram = s.fgProgram := rfl
@[simp] theorem markFlagLoss_isrProgram (r : Reg) (mask v : Byte) : (s.markFlagLoss r mask v).isrProgram = s.isrProgram := rfl
@[simp] theorem markFlagLoss_dir (r : Reg) (mask v : Byte) : (s.markFlagLoss r mask v).dir = s.dir := rfl
@[simp] theorem markFlagLoss_out (r : Reg) (mask v : Byte) : (s.markFlagLoss r mask v).out = s.out := rfl
@[simp] theorem markFlagLoss_ie (r : Reg) (mask v : Byte) : (s.markFlagLoss r mask v).ie = s.ie := rfl
@[simp] theorem markFlagLoss_ies (r : Reg) (mask v : Byte) : (s.markFlagLoss r mask v).ies = s.ies := rfl
@[simp] theorem markFlagLoss_ifg (r : Reg) (mask v : Byte) : (s.markFlagLoss r mask v).ifg = s.ifg := rfl
@[simp] theorem markFlagLoss_lvl (r : Reg) (mask v : Byte) : (s.markFlagLoss r mask v).lvl = s.lvl := rfl
@[simp] theorem markFlagLoss_ext (r : Reg) (mask v : Byte) : (s.markFlagLoss r mask v).ext = s.ext := rfl
@[simp] theorem markFlagLoss_gie (r : Reg) (mask v : Byte) : (s.markFlagLoss r mask v).gie = s.gie := rfl
@[simp] theorem markFlagLoss_inIsr (r : Reg) (mask v : Byte) : (s.markFlagLoss r mask v).inIsr = s.inIsr := rfl
@[simp] theorem markFlagLoss_fg (r : Reg) (mask v : Byte) : (s.markFlagLoss r mask v).fg = s.fg := rfl
@[simp] theorem markFlagLoss_isr (r : Reg) (mask v : Byte) : (s.markFlagLoss r mask v).isr = s.isr := rfl
@[simp] theorem markFlagLoss_race (r : Reg) (mask v : Byte) : (s.markFlagLoss r mask v).race = s.race := rfl
@[simp] theorem markFlagLoss_contention (r : Reg) (mask v : Byte) : (s.markFlagLoss r mask v).contention = s.contention := rfl
@[simp] theorem markFlagLoss_flagLoss (r : Reg) (mask v : Byte) : (s.markFlagLoss r mask v).flagLoss = if r = .ifg then flagLossMarks s.flagLoss s.ifg mask v else s.flagLoss := rfl
@[simp] theorem markFlagLoss_refused (r : Reg) (mask v : Byte) : (s.markFlagLoss r mask v).refused = s.refused := rfl
@[simp] theorem markFlagLoss_draws (r : Reg) (mask v : Byte) : (s.markFlagLoss r mask v).draws = s.draws := rfl
@[simp] theorem markFlagLoss_drawCount (r : Reg) (mask v : Byte) : (s.markFlagLoss r mask v).drawCount = s.drawCount := rfl
@[simp] theorem markFlagLoss_turns (r : Reg) (mask v : Byte) : (s.markFlagLoss r mask v).turns = s.turns := rfl
@[simp] theorem markFlagLoss_turnCount (r : Reg) (mask v : Byte) : (s.markFlagLoss r mask v).turnCount = s.turnCount := rfl
@[simp] theorem markFlagLoss_ctx (r : Reg) (mask v : Byte) (d : Context) : (s.markFlagLoss r mask v).ctx d = s.ctx d := by cases d <;> rfl
@[simp] theorem markFlagLoss_active (r : Reg) (mask v : Byte) : (s.markFlagLoss r mask v).active = s.active := rfl
@[simp] theorem markFlagLoss_program (r : Reg) (mask v : Byte) (d : Context) : (s.markFlagLoss r mask v).program d = s.program d := by cases d <;> rfl
@[simp] theorem markFlagLoss_levelAt (r : Reg) (mask v : Byte) (p : Pin) : (s.markFlagLoss r mask v).levelAt p = s.levelAt p := rfl

/-! `recompute` -/

@[simp] theorem recompute_params : s.recompute.params = s.params := rfl
@[simp] theorem recompute_fgProgram : s.recompute.fgProgram = s.fgProgram := rfl
@[simp] theorem recompute_isrProgram : s.recompute.isrProgram = s.isrProgram := rfl
@[simp] theorem recompute_dir : s.recompute.dir = s.dir := rfl
@[simp] theorem recompute_out : s.recompute.out = s.out := rfl
@[simp] theorem recompute_ie : s.recompute.ie = s.ie := rfl
@[simp] theorem recompute_ies : s.recompute.ies = s.ies := rfl
@[simp] theorem recompute_ifg : s.recompute.ifg = edgeFlags s.params.flagNeedsEnable s.ie s.ies s.ifg s.lvl (lineLevels s.dir s.out s.ext s.params.pull s.nextDraw) := rfl
@[simp] theorem recompute_lvl : s.recompute.lvl = lineLevels s.dir s.out s.ext s.params.pull s.nextDraw := rfl
@[simp] theorem recompute_ext : s.recompute.ext = s.ext := rfl
@[simp] theorem recompute_gie : s.recompute.gie = s.gie := rfl
@[simp] theorem recompute_inIsr : s.recompute.inIsr = s.inIsr := rfl
@[simp] theorem recompute_fg : s.recompute.fg = s.fg := rfl
@[simp] theorem recompute_isr : s.recompute.isr = s.isr := rfl
@[simp] theorem recompute_race : s.recompute.race = s.race := rfl
@[simp] theorem recompute_contention : s.recompute.contention = contentionMarks s.contention s.dir s.out s.ext := rfl
@[simp] theorem recompute_flagLoss : s.recompute.flagLoss = s.flagLoss := rfl
@[simp] theorem recompute_refused : s.recompute.refused = s.refused := rfl
@[simp] theorem recompute_draws : s.recompute.draws = s.draws.tail := rfl
@[simp] theorem recompute_drawCount : s.recompute.drawCount = s.drawCount + 1 := rfl
@[simp] theorem recompute_turns : s.recompute.turns = s.turns := rfl
@[simp] theorem recompute_turnCount : s.recompute.turnCount = s.turnCount := rfl
@[simp] theorem recompute_ctx (d : Context) : s.recompute.ctx d = s.ctx d := by cases d <;> rfl
@[simp] theorem recompute_active : s.recompute.active = s.active := rfl
@[simp] theorem recompute_program (d : Context) : s.recompute.program d = s.program d := by cases d <;> rfl
@[simp] theorem recompute_levelAt (p : Pin) : s.recompute.levelAt p = s.levelAt p := rfl

/-! `enterInterrupt` -/

@[simp] theorem enterInterrupt_params : s.enterInterrupt.params = s.params := rfl
@[simp] theorem enterInterrupt_fgProgram : s.enterInterrupt.fgProgram = s.fgProgram := rfl
@[simp] theorem enterInterrupt_isrProgram : s.enterInterrupt.isrProgram = s.isrProgram := rfl
@[simp] theorem enterInterrupt_dir : s.enterInterrupt.dir = s.dir := rfl
@[simp] theorem enterInterrupt_out : s.enterInterrupt.out = s.out := rfl
@[simp] theorem enterInterrupt_ie : s.enterInterrupt.ie = s.ie := rfl
@[simp] theorem enterInterrupt_ies : s.enterInterrupt.ies = s.ies := rfl
@[simp] theorem enterInterrupt_ifg : s.enterInterrupt.ifg = s.ifg := rfl
@[simp] theorem enterInterrupt_lvl : s.enterInterrupt.lvl = s.lvl := rfl
@[simp] theorem enterInterrupt_ext : s.enterInterrupt.ext = s.ext := rfl
@[simp] theorem enterInterrupt_gie : s.enterInterrupt.gie = false := rfl
@[simp] theorem enterInterrupt_inIsr : s.enterInterrupt.inIsr = true := rfl
@[simp] theorem enterInterrupt_fg : s.enterInterrupt.fg = s.fg := rfl
@[simp] theorem enterInterrupt_isr : s.enterInterrupt.isr = { s.isr with k := 0, j := 0, res := none, inflight := none } := rfl
@[simp] theorem enterInterrupt_race : s.enterInterrupt.race = s.race := rfl
@[simp] theorem enterInterrupt_contention : s.enterInterrupt.contention = s.contention := rfl
@[simp] theorem enterInterrupt_flagLoss : s.enterInterrupt.flagLoss = s.flagLoss := rfl
@[simp] theorem enterInterrupt_refused : s.enterInterrupt.refused = s.refused := rfl
@[simp] theorem enterInterrupt_draws : s.enterInterrupt.draws = s.draws := rfl
@[simp] theorem enterInterrupt_drawCount : s.enterInterrupt.drawCount = s.drawCount := rfl
@[simp] theorem enterInterrupt_turns : s.enterInterrupt.turns = s.turns := rfl
@[simp] theorem enterInterrupt_turnCount : s.enterInterrupt.turnCount = s.turnCount := rfl
@[simp] theorem enterInterrupt_program (d : Context) : s.enterInterrupt.program d = s.program d := by cases d <;> rfl
@[simp] theorem enterInterrupt_readReg (q : Reg) : s.enterInterrupt.readReg q = s.readReg q := by cases q <;> rfl
@[simp] theorem enterInterrupt_levelAt (p : Pin) : s.enterInterrupt.levelAt p = s.levelAt p := rfl

/-! `returnFromInterrupt` -/

@[simp] theorem returnFromInterrupt_params : s.returnFromInterrupt.params = s.params := rfl
@[simp] theorem returnFromInterrupt_fgProgram : s.returnFromInterrupt.fgProgram = s.fgProgram := rfl
@[simp] theorem returnFromInterrupt_isrProgram : s.returnFromInterrupt.isrProgram = s.isrProgram := rfl
@[simp] theorem returnFromInterrupt_dir : s.returnFromInterrupt.dir = s.dir := rfl
@[simp] theorem returnFromInterrupt_out : s.returnFromInterrupt.out = s.out := rfl
@[simp] theorem returnFromInterrupt_ie : s.returnFromInterrupt.ie = s.ie := rfl
@[simp] theorem returnFromInterrupt_ies : s.returnFromInterrupt.ies = s.ies := rfl
@[simp] theorem returnFromInterrupt_ifg : s.returnFromInterrupt.ifg = s.ifg := rfl
@[simp] theorem returnFromInterrupt_lvl : s.returnFromInterrupt.lvl = s.lvl := rfl
@[simp] theorem returnFromInterrupt_ext : s.returnFromInterrupt.ext = s.ext := rfl
@[simp] theorem returnFromInterrupt_gie : s.returnFromInterrupt.gie = true := rfl
@[simp] theorem returnFromInterrupt_inIsr : s.returnFromInterrupt.inIsr = false := rfl
@[simp] theorem returnFromInterrupt_fg : s.returnFromInterrupt.fg = s.fg := rfl
@[simp] theorem returnFromInterrupt_isr : s.returnFromInterrupt.isr = s.isr := rfl
@[simp] theorem returnFromInterrupt_race : s.returnFromInterrupt.race = s.race := rfl
@[simp] theorem returnFromInterrupt_contention : s.returnFromInterrupt.contention = s.contention := rfl
@[simp] theorem returnFromInterrupt_flagLoss : s.returnFromInterrupt.flagLoss = s.flagLoss := rfl
@[simp] theorem returnFromInterrupt_refused : s.returnFromInterrupt.refused = s.refused := rfl
@[simp] theorem returnFromInterrupt_draws : s.returnFromInterrupt.draws = s.draws := rfl
@[simp] theorem returnFromInterrupt_drawCount : s.returnFromInterrupt.drawCount = s.drawCount := rfl
@[simp] theorem returnFromInterrupt_turns : s.returnFromInterrupt.turns = s.turns := rfl
@[simp] theorem returnFromInterrupt_turnCount : s.returnFromInterrupt.turnCount = s.turnCount := rfl
@[simp] theorem returnFromInterrupt_ctx (d : Context) : s.returnFromInterrupt.ctx d = s.ctx d := by cases d <;> rfl
@[simp] theorem returnFromInterrupt_program (d : Context) : s.returnFromInterrupt.program d = s.program d := by cases d <;> rfl
@[simp] theorem returnFromInterrupt_readReg (q : Reg) : s.returnFromInterrupt.readReg q = s.readReg q := by cases q <;> rfl
@[simp] theorem returnFromInterrupt_levelAt (p : Pin) : s.returnFromInterrupt.levelAt p = s.levelAt p := rfl

/-! `afterTurn` -/

@[simp] theorem afterTurn_params : s.afterTurn.params = s.params := rfl
@[simp] theorem afterTurn_fgProgram : s.afterTurn.fgProgram = s.fgProgram := rfl
@[simp] theorem afterTurn_isrProgram : s.afterTurn.isrProgram = s.isrProgram := rfl
@[simp] theorem afterTurn_dir : s.afterTurn.dir = s.dir := rfl
@[simp] theorem afterTurn_out : s.afterTurn.out = s.out := rfl
@[simp] theorem afterTurn_ie : s.afterTurn.ie = s.ie := rfl
@[simp] theorem afterTurn_ies : s.afterTurn.ies = s.ies := rfl
@[simp] theorem afterTurn_ifg : s.afterTurn.ifg = s.ifg := rfl
@[simp] theorem afterTurn_lvl : s.afterTurn.lvl = s.lvl := rfl
@[simp] theorem afterTurn_ext : s.afterTurn.ext = s.ext := rfl
@[simp] theorem afterTurn_gie : s.afterTurn.gie = s.gie := rfl
@[simp] theorem afterTurn_inIsr : s.afterTurn.inIsr = s.inIsr := rfl
@[simp] theorem afterTurn_fg : s.afterTurn.fg = s.fg := rfl
@[simp] theorem afterTurn_isr : s.afterTurn.isr = s.isr := rfl
@[simp] theorem afterTurn_race : s.afterTurn.race = s.race := rfl
@[simp] theorem afterTurn_contention : s.afterTurn.contention = s.contention := rfl
@[simp] theorem afterTurn_flagLoss : s.afterTurn.flagLoss = s.flagLoss := rfl
@[simp] theorem afterTurn_refused : s.afterTurn.refused = s.refused := rfl
@[simp] theorem afterTurn_draws : s.afterTurn.draws = s.draws := rfl
@[simp] theorem afterTurn_drawCount : s.afterTurn.drawCount = s.drawCount := rfl
@[simp] theorem afterTurn_turns : s.afterTurn.turns = s.turns.tail := rfl
@[simp] theorem afterTurn_turnCount : s.afterTurn.turnCount = s.turnCount + 1 := rfl
@[simp] theorem afterTurn_ctx (d : Context) : s.afterTurn.ctx d = s.ctx d := by cases d <;> rfl
@[simp] theorem afterTurn_active : s.afterTurn.active = s.active := rfl
@[simp] theorem afterTurn_program (d : Context) : s.afterTurn.program d = s.program d := by cases d <;> rfl
@[simp] theorem afterTurn_readReg (q : Reg) : s.afterTurn.readReg q = s.readReg q := by cases q <;> rfl
@[simp] theorem afterTurn_levelAt (p : Pin) : s.afterTurn.levelAt p = s.levelAt p := rfl

/-! `doSetGie` -/

@[simp] theorem doSetGie_params (b : Bool) : (s.doSetGie b).params = s.params := rfl
@[simp] theorem doSetGie_fgProgram (b : Bool) : (s.doSetGie b).fgProgram = s.fgProgram := rfl
@[simp] theorem doSetGie_isrProgram (b : Bool) : (s.doSetGie b).isrProgram = s.isrProgram := rfl
@[simp] theorem doSetGie_dir (b : Bool) : (s.doSetGie b).dir = s.dir := rfl
@[simp] theorem doSetGie_out (b : Bool) : (s.doSetGie b).out = s.out := rfl
@[simp] theorem doSetGie_ie (b : Bool) : (s.doSetGie b).ie = s.ie := rfl
@[simp] theorem doSetGie_ies (b : Bool) : (s.doSetGie b).ies = s.ies := rfl
@[simp] theorem doSetGie_ifg (b : Bool) : (s.doSetGie b).ifg = s.ifg := rfl
@[simp] theorem doSetGie_lvl (b : Bool) : (s.doSetGie b).lvl = s.lvl := rfl
@[simp] theorem doSetGie_ext (b : Bool) : (s.doSetGie b).ext = s.ext := rfl
@[simp] theorem doSetGie_gie (b : Bool) : (s.doSetGie b).gie = b := rfl
@[simp] theorem doSetGie_inIsr (b : Bool) : (s.doSetGie b).inIsr = s.inIsr := rfl
@[simp] theorem doSetGie_fg (b : Bool) : (s.doSetGie b).fg = s.fg := rfl
@[simp] theorem doSetGie_isr (b : Bool) : (s.doSetGie b).isr = s.isr := rfl
@[simp] theorem doSetGie_race (b : Bool) : (s.doSetGie b).race = s.race := rfl
@[simp] theorem doSetGie_contention (b : Bool) : (s.doSetGie b).contention = s.contention := rfl
@[simp] theorem doSetGie_flagLoss (b : Bool) : (s.doSetGie b).flagLoss = s.flagLoss := rfl
@[simp] theorem doSetGie_refused (b : Bool) : (s.doSetGie b).refused = s.refused := rfl
@[simp] theorem doSetGie_draws (b : Bool) : (s.doSetGie b).draws = s.draws := rfl
@[simp] theorem doSetGie_drawCount (b : Bool) : (s.doSetGie b).drawCount = s.drawCount := rfl
@[simp] theorem doSetGie_turns (b : Bool) : (s.doSetGie b).turns = s.turns := rfl
@[simp] theorem doSetGie_turnCount (b : Bool) : (s.doSetGie b).turnCount = s.turnCount := rfl
@[simp] theorem doSetGie_ctx (b : Bool) (d : Context) : (s.doSetGie b).ctx d = s.ctx d := by cases d <;> rfl
@[simp] theorem doSetGie_active (b : Bool) : (s.doSetGie b).active = s.active := rfl
@[simp] theorem doSetGie_program (b : Bool) (d : Context) : (s.doSetGie b).program d = s.program d := by cases d <;> rfl
@[simp] theorem doSetGie_readReg (b : Bool) (q : Reg) : (s.doSetGie b).readReg q = s.readReg q := by cases q <;> rfl
@[simp] theorem doSetGie_levelAt (b : Bool) (p : Pin) : (s.doSetGie b).levelAt p = s.levelAt p := rfl

/-! `setCtx` -/

@[simp] theorem setCtx_params (c : Context) (x : ContextState) : (s.setCtx c x).params = s.params := by cases c <;> rfl
@[simp] theorem setCtx_fgProgram (c : Context) (x : ContextState) : (s.setCtx c x).fgProgram = s.fgProgram := by cases c <;> rfl
@[simp] theorem setCtx_isrProgram (c : Context) (x : ContextState) : (s.setCtx c x).isrProgram = s.isrProgram := by cases c <;> rfl
@[simp] theorem setCtx_dir (c : Context) (x : ContextState) : (s.setCtx c x).dir = s.dir := by cases c <;> rfl
@[simp] theorem setCtx_out (c : Context) (x : ContextState) : (s.setCtx c x).out = s.out := by cases c <;> rfl
@[simp] theorem setCtx_ie (c : Context) (x : ContextState) : (s.setCtx c x).ie = s.ie := by cases c <;> rfl
@[simp] theorem setCtx_ies (c : Context) (x : ContextState) : (s.setCtx c x).ies = s.ies := by cases c <;> rfl
@[simp] theorem setCtx_ifg (c : Context) (x : ContextState) : (s.setCtx c x).ifg = s.ifg := by cases c <;> rfl
@[simp] theorem setCtx_lvl (c : Context) (x : ContextState) : (s.setCtx c x).lvl = s.lvl := by cases c <;> rfl
@[simp] theorem setCtx_ext (c : Context) (x : ContextState) : (s.setCtx c x).ext = s.ext := by cases c <;> rfl
@[simp] theorem setCtx_gie (c : Context) (x : ContextState) : (s.setCtx c x).gie = s.gie := by cases c <;> rfl
@[simp] theorem setCtx_inIsr (c : Context) (x : ContextState) : (s.setCtx c x).inIsr = s.inIsr := by cases c <;> rfl
@[simp] theorem setCtx_race (c : Context) (x : ContextState) : (s.setCtx c x).race = s.race := by cases c <;> rfl
@[simp] theorem setCtx_contention (c : Context) (x : ContextState) : (s.setCtx c x).contention = s.contention := by cases c <;> rfl
@[simp] theorem setCtx_flagLoss (c : Context) (x : ContextState) : (s.setCtx c x).flagLoss = s.flagLoss := by cases c <;> rfl
@[simp] theorem setCtx_refused (c : Context) (x : ContextState) : (s.setCtx c x).refused = s.refused := by cases c <;> rfl
@[simp] theorem setCtx_draws (c : Context) (x : ContextState) : (s.setCtx c x).draws = s.draws := by cases c <;> rfl
@[simp] theorem setCtx_drawCount (c : Context) (x : ContextState) : (s.setCtx c x).drawCount = s.drawCount := by cases c <;> rfl
@[simp] theorem setCtx_turns (c : Context) (x : ContextState) : (s.setCtx c x).turns = s.turns := by cases c <;> rfl
@[simp] theorem setCtx_turnCount (c : Context) (x : ContextState) : (s.setCtx c x).turnCount = s.turnCount := by cases c <;> rfl
@[simp] theorem setCtx_active (c : Context) (x : ContextState) : (s.setCtx c x).active = s.active := by cases c <;> rfl
@[simp] theorem setCtx_program (c d : Context) (x : ContextState) : (s.setCtx c x).program d = s.program d := by cases c <;> cases d <;> rfl
@[simp] theorem setCtx_readReg (c : Context) (x : ContextState) (q : Reg) : (s.setCtx c x).readReg q = s.readReg q := by cases c <;> cases q <;> rfl
@[simp] theorem setCtx_levelAt (c : Context) (x : ContextState) (p : Pin) : (s.setCtx c x).levelAt p = s.levelAt p := by cases c <;> rfl
@[simp] theorem setCtx_ctx_self (c : Context) (x : ContextState) : (s.setCtx c x).ctx c = x := by cases c <;> rfl
@[simp] theorem setCtx_ctx_other (c : Context) (x : ContextState) : (s.setCtx c x).ctx c.other = s.ctx c.other := by cases c <;> rfl
theorem setCtx_ctx (c d : Context) (x : ContextState) : (s.setCtx c x).ctx d = if d = c then x else s.ctx d := by cases c <;> cases d <;> rfl
@[simp] theorem setCtx_setCtx (c : Context) (x y : ContextState) : (s.setCtx c x).setCtx c y = s.setCtx c y := by cases c <;> rfl

/-! `writeReg` -/

@[simp] theorem writeReg_params (r : Reg) (v : Byte) : (s.writeReg r v).params = s.params := by cases r <;> rfl
@[simp] theorem writeReg_fgProgram (r : Reg) (v : Byte) : (s.writeReg r v).fgProgram = s.fgProgram := by cases r <;> rfl
@[simp] theorem writeReg_isrProgram (r : Reg) (v : Byte) : (s.writeReg r v).isrProgram = s.isrProgram := by cases r <;> rfl
@[simp] theorem writeReg_ext (r : Reg) (v : Byte) : (s.writeReg r v).ext = s.ext := by cases r <;> rfl
@[simp] theorem writeReg_gie (r : Reg) (v : Byte) : (s.writeReg r v).gie = s.gie := by cases r <;> rfl
@[simp] theorem writeReg_inIsr (r : Reg) (v : Byte) : (s.writeReg r v).inIsr = s.inIsr := by cases r <;> rfl
@[simp] theorem writeReg_fg (r : Reg) (v : Byte) : (s.writeReg r v).fg = s.fg := by cases r <;> rfl
@[simp] theorem writeReg_isr (r : Reg) (v : Byte) : (s.writeReg r v).isr = s.isr := by cases r <;> rfl
@[simp] theorem writeReg_race (r : Reg) (v : Byte) : (s.writeReg r v).race = s.race := by cases r <;> rfl
@[simp] theorem writeReg_flagLoss (r : Reg) (v : Byte) : (s.writeReg r v).flagLoss = s.flagLoss := by cases r <;> rfl
@[simp] theorem writeReg_turns (r : Reg) (v : Byte) : (s.writeReg r v).turns = s.turns := by cases r <;> rfl
@[simp] theorem writeReg_turnCount (r : Reg) (v : Byte) : (s.writeReg r v).turnCount = s.turnCount := by cases r <;> rfl
@[simp] theorem writeReg_dir (r : Reg) (v : Byte) : (s.writeReg r v).dir = if r = .dir then v else s.dir := by cases r <;> rfl
@[simp] theorem writeReg_out (r : Reg) (v : Byte) : (s.writeReg r v).out = if r = .out then v else s.out := by cases r <;> rfl
@[simp] theorem writeReg_ie (r : Reg) (v : Byte) : (s.writeReg r v).ie = if r = .ie then v else s.ie := by cases r <;> rfl
@[simp] theorem writeReg_ies (r : Reg) (v : Byte) : (s.writeReg r v).ies = if r = .ies then v else s.ies := by cases r <;> rfl
@[simp] theorem writeReg_refused (r : Reg) (v : Byte) : (s.writeReg r v).refused = if r = .inp then some .writeToIN else s.refused := by cases r <;> rfl
@[simp] theorem writeReg_ctx (r : Reg) (v : Byte) (d : Context) : (s.writeReg r v).ctx d = s.ctx d := by cases r <;> cases d <;> rfl
@[simp] theorem writeReg_active (r : Reg) (v : Byte) : (s.writeReg r v).active = s.active := by cases r <;> rfl
@[simp] theorem writeReg_program (r : Reg) (v : Byte) (d : Context) : (s.writeReg r v).program d = s.program d := by cases r <;> cases d <;> rfl

end Sys2Proof.Machine
end

