-- ==== Sys2Proof/Laws/Bits.lean ====
section
/-! SUPPORT. Bits of a byte by pin, masks, and the per-pin reading of the line and flag functions. -/

namespace Sys2Proof.Machine

/-- Two bytes with the same bits are the same byte. -/
theorem byte_ext {a b : Byte} (h : ∀ p, bit a p = bit b p) : a = b := by
  apply BitVec.eq_of_getLsbD_eq
  intro i hi
  exact h ⟨i, hi⟩

@[simp] theorem onPin_ofFn {α : Type} (f : Pin → α) (p : Pin) : onPin (Vector.ofFn f) p = f p := by
  show (Vector.ofFn f)[p.val] = f p
  simp

@[simp] theorem onPin_replicate {α : Type} (a : α) (p : Pin) : onPin (Vector.replicate 8 a) p = a := by
  show (Vector.replicate 8 a)[p.val] = a
  simp

theorem onPin_set {α : Type} (v : Vector α 8) (p q : Pin) (a : α) :
    onPin (v.set p a) q = if q = p then a else onPin v q := by
  show (v.set p.val a)[q.val] = if q = p then a else v[q.val]
  rw [Vector.getElem_set]
  simp [Fin.ext_iff, eq_comm]

/-- Two per-pin lists that agree on every pin are equal. -/
theorem onPin_ext {α : Type} {v w : Vector α 8} (h : ∀ p, onPin v p = onPin w p) : v = w := by
  apply Vector.ext
  intro i hi
  exact h ⟨i, hi⟩

@[simp] theorem bit_ofPins (f : Pin → Bool) (p : Pin) : bit (ofPins f) p = f p := by
  simp [bit, ofPins]

@[simp] theorem bit_or (a b : Byte) (p : Pin) : bit (a ||| b) p = (bit a p || bit b p) := by simp [bit]

@[simp] theorem bit_and (a b : Byte) (p : Pin) : bit (a &&& b) p = (bit a p && bit b p) := by simp [bit]

@[simp] theorem bit_xor (a b : Byte) (p : Pin) : bit (a ^^^ b) p = (bit a p ^^ bit b p) := by simp [bit]

@[simp] theorem bit_not (a : Byte) (p : Pin) : bit (~~~a) p = !bit a p := by simp [bit]

@[simp] theorem bit_zero (p : Pin) : bit 0#8 p = false := by simp [bit]

/-- A signal's mask holds exactly its own bit (40_signal.md R101). -/
@[simp] theorem bit_maskOf (params : Params) (sig : Signal) (p : Pin) :
    bit (maskOf params sig) p = decide (p = params.wiring.pos sig) := by
  have key : ∀ p q : Pin, bit (1#8 <<< q.val) p = decide (p = q) := by decide
  exact key p _

@[simp] theorem bit_applyMask (a m : Byte) (p : Pin) : bit (applyMask a m) p = (bit a p || bit m p) := by
  simp [applyMask]

@[simp] theorem bit_clearMask (a m : Byte) (p : Pin) : bit (clearMask a m) p = (bit a p && !bit m p) := by
  simp [clearMask]

/-- A masked update keeps every bit outside its mask (40_signal.md R102, R103). -/
theorem bit_maskFn_off (f : MaskFn) (a m : Byte) (p : Pin) (h : bit m p = false) :
    bit (maskFn f a m) p = bit a p := by
  cases f <;> simp [maskFn, h]

/-- Testing a byte against a signal's mask reads the signal's bit (40_signal.md R106). -/
theorem and_maskOf_ne_zero (v : Byte) (params : Params) (sig : Signal) :
    (v &&& maskOf params sig != 0#8) = bit v (params.wiring.pos sig) := by
  cases h : bit v (params.wiring.pos sig) with
  | true =>
    simp only [bne_iff_ne, ne_eq]
    intro hz
    have := congrArg (bit · (params.wiring.pos sig)) hz
    simp [h] at this
  | false =>
    have : v &&& maskOf params sig = 0#8 := by
      apply byte_ext
      intro p
      by_cases hp : p = params.wiring.pos sig <;> simp [hp, h]
    simp [this]

/-- A signal's bit is no foreign bit (00_scope.md R9). -/
theorem bit_foreignMask_pos (params : Params) (sig : Signal) :
    bit (foreignMask params) (params.wiring.pos sig) = false := by
  cases sig <;> simp [foreignMask]

@[simp] theorem bit_lineLevels (dir out : Byte) (ext : Vector ExtDrive 8) (pull : Vector Pull 8) (d : Byte) (p : Pin) :
    bit (lineLevels dir out ext pull d) p =
      (lineLevel (bit dir p) (bit out p) (onPin ext p) (onPin pull p)).getD (bit d p) := by
  simp [lineLevels]

@[simp] theorem contentionMarks_get (b : Vector Bool 8) (dir out : Byte) (ext : Vector ExtDrive 8) (p : Pin) :
    onPin (contentionMarks b dir out ext) p = (onPin b p || opposed (bit dir p) (bit out p) (onPin ext p)) := by
  simp [contentionMarks]

@[simp] theorem flagLossMarks_get (b : Vector Bool 8) (ifg mask v : Byte) (p : Pin) :
    onPin (flagLossMarks b ifg mask v) p = (onPin b p || (!bit v p && !bit mask p && bit ifg p)) := by
  simp [flagLossMarks]

@[simp] theorem bit_edgeFlags (g : Bool) (ie ies ifg old new : Byte) (p : Pin) :
    bit (edgeFlags g ie ies ifg old new) p =
      (bit ifg p || (triggering (bit ies p) (bit old p) (bit new p) && (!g || bit ie p))) := by
  simp [edgeFlags]

/-- A line that keeps its level has no edge (10_state.md R34). -/
@[simp] theorem triggering_same (ies b : Bool) : triggering ies b b = false := by
  cases ies <;> cases b <;> rfl

/-- A write to IFG, bit by bit (10_state.md R25). -/
theorem bit_ifgWritten (w : WriteOne) (old v : Byte) (p : Pin) :
    bit (ifgWritten w old v) p = (bit v p && (decide (w = .sets) || bit old p)) := by
  cases w <;> simp [ifgWritten]

/-- A write to IES keeps every flag and may set those of changed bits (10_state.md R24). -/
theorem bit_ifgAfterIes (old oldIes newIes d : Byte) (p : Pin) :
    bit (ifgAfterIes old oldIes newIes d) p =
      (bit old p || ((bit oldIes p ^^ bit newIes p) && bit d p)) := by
  simp [ifgAfterIes, Config.iesWriteMaySetFlag]

/-- Distinct positions give the signals distinct pins (00_scope.md R9). -/
theorem pos_injective {w : Wiring} (h : w.distinct = true) : Function.Injective w.pos := by
  simp only [Wiring.distinct, decide_eq_true_eq, List.nodup_cons, List.mem_cons, not_or] at h
  obtain ⟨h1, h2, h3, h4, -⟩ := h
  intro a b hab
  cases a <;> cases b <;> simp_all [Wiring.pos]

end Sys2Proof.Machine
end

