-- ==== Sys2Proof/Laws/Ops.lean ====
section
/-! SUPPORT. What each shared operation can do: register writes, the micro-steps, running a command's next micro-step. -/

namespace Sys2Proof.Machine

/-- Recomputing puts every determined line at its level (10_state.md R32). -/
theorem recompute_settled (s : State) : LinesSettled s.recompute := by
  intro p b h
  rw [recompute_levelAt] at h
  rw [recompute_lvl, bit_lineLevels]
  unfold State.levelAt at h
  rw [h]
  rfl

/-- Recomputing sets flags by edges only (10_state.md R34). -/
theorem recompute_flags (s : State) : FlagsFromEdges s s.recompute := fun _ => by simp

/-- A recomputed undetermined line has a drawn level (10_state.md R32). -/
theorem bit_recompute_lvl (s : State) (p : Pin) : bit s.recompute.lvl p = (s.levelAt p).getD (bit s.nextDraw p) := by
  simp [State.levelAt]

/-- A register write other than of DIR and OUT leaves the lines alone (10_state.md R32). -/
theorem writeReg_lines {s : State} {r : Reg} (v : Byte) (hd : r ≠ .dir) (ho : r ≠ .out) :
    SameLines s (s.writeReg r v) := by
  cases r <;> first | contradiction | exact ⟨rfl, rfl⟩

/-- A write to DIR or OUT settles the lines (10_state.md R32). -/
theorem writeReg_settles (s : State) {r : Reg} (v : Byte) (h : r = .dir ∨ r = .out) : LinesSettled (s.writeReg r v) := by
  rcases h with rfl | rfl <;> exact recompute_settled _

@[simp] theorem setCtx_settled (s : State) (c : Context) (x : ContextState) :
    LinesSettled (s.setCtx c x) ↔ LinesSettled s := by
  simp [LinesSettled]

/-- Every register write keeps settled lines settled (10_state.md R32). -/
theorem writeReg_settled {s : State} (h : LinesSettled s) (r : Reg) (v : Byte) : LinesSettled (s.writeReg r v) := by
  cases r with
  | dir => exact recompute_settled _
  | out => exact recompute_settled _
  | inp => exact h
  | ie => exact h
  | ies => exact h
  | ifg => exact h

/-- A write to DIR or OUT sets flags by edges only (10_state.md R34). -/
theorem writeReg_flags {s : State} {r : Reg} (v : Byte) (h : r = .dir ∨ r = .out) : FlagsFromEdges s (s.writeReg r v) := by
  rcases h with rfl | rfl <;> exact fun _ => by simp [State.writeReg]

/-- A register write leaves the marks there were (10_state.md R43). -/
theorem writeReg_contention (s : State) (r : Reg) (v : Byte) (p : Pin) (h : onPin s.contention p = true) :
    onPin (s.writeReg r v).contention p = true := by
  cases r <;> simp [State.writeReg, h]

/-- The register at its own address (20_memory.md R61). -/
theorem regAt_addr {a : RegAddrs} (h : a.distinct = true) (r : Reg) : regAt a (a.addr r) = some r := by
  simp only [RegAddrs.distinct, decide_eq_true_eq, List.nodup_cons, List.mem_cons, not_or] at h
  obtain ⟨h1, h2, h3, h4, h5, -⟩ := h
  cases r <;> simp_all [regAt, RegAddrs.addr, List.find?, beq_eq_false_iff_ne.mpr]

/-- No register elsewhere (20_memory.md R61). -/
theorem regAt_none {a : RegAddrs} {x : Addr} (h : ∀ r, a.addr r ≠ x) : regAt a x = none := by simp [regAt, h]

/-- The Contention marks after a register write: those there were, and after DIR and OUT those of the opposed pins (10_state.md
R32, R45). -/
theorem writeReg_contention_get (s : State) (r : Reg) (v : Byte) (p : Pin) :
    onPin (s.writeReg r v).contention p = (onPin s.contention p || (decide (r = .dir ∨ r = .out) &&
      opposed (bit (s.writeReg r v).dir p) (bit (s.writeReg r v).out p) (onPin s.ext p))) := by
  cases r <;> simp [State.writeReg]

/-- Marking keeps the marks there were (10_state.md R43). -/
theorem mark_keeps (m : RaceMarks) (r q : Reg) (b : Bool) (h : m.has q = true) : (m.mark r b).has q = true := by
  cases r <;> cases q <;> simp_all [RaceMarks.mark, RaceMarks.has]

/-- A mark is set where it was, or where it is set now (10_state.md R44). -/
theorem mark_has (m : RaceMarks) (r q : Reg) (b : Bool) : (m.mark r b).has q = (m.has q || (decide (q = r) && b)) := by
  cases r <;> cases q <;> simp [RaceMarks.mark, RaceMarks.has]

/-- Every meaning runs the next of its command's micro-steps. -/
theorem exec_eq (i : Instr) (s : State) : exec i s = runMicro (microSteps i) s := by cases i <;> rfl

/-- Running a command answers a next state exactly where the cursor names one of its micro-steps. -/
theorem runMicro_next {ms : List Micro} {s t : State} :
    runMicro ms s = .next t ↔ ∃ m, ms[(s.ctx s.active).j]? = some m ∧
      t = (s.doMicro s.active m).advance s.active ms.length := by
  unfold runMicro
  split
  · next m hm => simp [hm, eq_comm]
  · next hm => simp [hm]

/-- Running a command never refuses. -/
theorem runMicro_ne_refused (ms : List Micro) (s : State) (r : Refusal) : runMicro ms s ≠ .refused r := by
  unfold runMicro
  split <;> simp

/-- No command has more than one write half in flight: the first micro-step of a command is none (40_signal.md R104). -/
theorem first_micro_awaits (i : Instr) : ∃ m, (microSteps i)[0]? = some m ∧ m.awaits = none := by
  cases i <;> exact ⟨_, rfl, rfl⟩

/-- Every command is in the list of all commands. -/
theorem mem_all (i : Instr) : i ∈ Instr.all := by cases i <;> decide

/-- No command has more than eight micro-steps (70_reset_and_hazards.md R263). -/
theorem microSteps_length_le (i : Instr) : (microSteps i).length ≤ 8 := by cases i <;> decide

/-- A micro-step's index is below eight. -/
theorem microStep_index_lt {i : Instr} {j : Nat} {m : Micro} (h : (microSteps i)[j]? = some m) : j < 8 := by
  obtain ⟨hj, -⟩ := List.getElem?_eq_some_iff.mp h
  have := microSteps_length_le i
  omega

/-- After a read half comes the write half of the same register, and a write half comes after nothing else (40_signal.md R104). -/
theorem next_micro_awaits {i : Instr} {j : Nat} {m m' : Micro} (h : (microSteps i)[j]? = some m)
    (h' : (microSteps i)[j + 1]? = some m') : m'.awaits = m.latches := by
  have key : ∀ i ∈ Instr.all, ∀ j < 8, ∀ m ∈ (microSteps i)[j]?, ∀ m' ∈ (microSteps i)[j + 1]?,
      m'.awaits = m.latches := by decide
  exact key i (mem_all i) j (microStep_index_lt h) m h m' h'

/-- The last micro-step of a command is no read half (40_signal.md R104). -/
theorem last_micro_latches {i : Instr} {j : Nat} {m : Micro} (h : (microSteps i)[j]? = some m)
    (hl : ¬ j + 1 < (microSteps i).length) : m.latches = none := by
  have key : ∀ i ∈ Instr.all, ∀ j < 8, ∀ m ∈ (microSteps i)[j]?, ¬ j + 1 < (microSteps i).length →
      m.latches = none := by decide
  exact key i (mem_all i) j (microStep_index_lt h) m h hl

end Sys2Proof.Machine
end

