-- ==== Sys2Proof/Laws/Micro.lean ====
section
/-! SUPPORT. What one micro-step can do, said once for each kind, and for every kind: the facts the frames and the invariants are
assembled from. In each, the micro-step is the running context's and the cursor then moves on in a command of `n` micro-steps. -/

namespace Sys2Proof.Machine

variable {s : State}

/-! The cursor moving on leaves a context's latch, what it has in flight and its result (10_state.md R39). -/

@[simp] theorem contextAdvance_latch (x : ContextState) (n : Nat) : (x.advance n).latch = x.latch := by
  unfold ContextState.advance
  split <;> rfl

@[simp] theorem contextAdvance_inflight (x : ContextState) (n : Nat) : (x.advance n).inflight = x.inflight := by
  unfold ContextState.advance
  split <;> rfl

@[simp] theorem contextAdvance_res (x : ContextState) (n : Nat) : (x.advance n).res = x.res := by
  unfold ContextState.advance
  split <;> rfl

/-- The state after a micro-step of the running context in a command of `n`. -/
abbrev afterMicro (s : State) (m : Micro) (n : Nat) : State := (s.doMicro s.active m).advance s.active n

/-- A micro-step leaves the cursor to `advance`, and changes what is in flight only in a masked update (40_signal.md R104). -/
theorem doMicro_ctx (s : State) (m : Micro) :
    ((s.doMicro s.active m).ctx s.active).k = (s.ctx s.active).k ∧
    ((s.doMicro s.active m).ctx s.active).j = (s.ctx s.active).j ∧
    ((s.doMicro s.active m).ctx s.active).inflight =
      (match m with
        | .readHalf r => some r
        | .writeHalf _ _ _ => none
        | _ => (s.ctx s.active).inflight) := by
  cases m <;> simp [State.doMicro, State.doReadHalf, State.doWriteHalf, State.land, State.doFullWrite, State.doSample]

/-- What the running context has in flight and in its latch after a micro-step (10_state.md R40). -/
theorem afterMicro_latch (m : Micro) (n : Nat) :
    ((afterMicro s m n).ctx s.active).inflight =
      (match m with
        | .readHalf r => some r
        | .writeHalf _ _ _ => none
        | _ => (s.ctx s.active).inflight) ∧
    ((afterMicro s m n).ctx s.active).latch =
      (match m with
        | .readHalf r => s.readReg r
        | _ => (s.ctx s.active).latch) := by
  constructor
  · simp [afterMicro, State.advance, (doMicro_ctx s m).2.2]
  · cases m <;>
      simp [State.doMicro, State.doReadHalf, State.doWriteHalf, State.land, State.doFullWrite, State.doSample, State.advance]

/-- No command writes IN, and the one full write is of DIR (10_state.md R27, 41_buspins.md R130). -/
theorem micro_writes (i : Instr) {m : Micro} (h : m ∈ microSteps i) :
    (∀ f sig, m ≠ .writeHalf .inp f sig) ∧ ∀ r v, m = .fullWrite r v → r = .dir ∧ v = 0#8 := by
  have key : ∀ i ∈ Instr.all, ∀ m ∈ microSteps i,
      (match m with
        | .fullWrite r v => decide (r = .dir ∧ v = 0#8)
        | .writeHalf r _ _ => decide (r ≠ .inp)
        | _ => true) = true := by decide
  have := key i (mem_all i) m h
  cases m <;> simp_all

/-- A micro-step of a command touches nothing outside (00_scope.md R8; 10_state.md R31, R37, R38). -/
theorem afterMicro_outside {i : Instr} {m : Micro} (h : m ∈ microSteps i) (n : Nat) : SameOutside s (afterMicro s m n) := by
  obtain ⟨hw, hf⟩ := micro_writes i h
  cases m with
  | readHalf r => constructor <;> simp [State.doMicro, State.advance, State.doReadHalf]
  | writeHalf r f sig =>
    have hr : r ≠ .inp := fun e => hw f sig (e ▸ rfl)
    constructor <;> simp [State.doMicro, State.advance, State.doWriteHalf, State.land, hr]
  | fullWrite r v =>
    obtain ⟨rfl, rfl⟩ := hf r v rfl
    constructor <;> simp [State.doMicro, State.advance, State.doFullWrite]
  | sample sig w => constructor <;> simp [State.doMicro, State.advance, State.doSample]
  | setGie b => constructor <;> simp [State.doMicro, State.advance]

/-- A read half changes the latch, what is in flight and the cursor only (40_signal.md R104). -/
theorem readHalf_frame (s : State) (r : Reg) (n : Nat) :
    let t := afterMicro s (.readHalf r) n
    t.dir = s.dir ∧ t.out = s.out ∧ t.ie = s.ie ∧ t.ies = s.ies ∧ t.ifg = s.ifg ∧ SameLines s t ∧
      SameControl s t ∧ t.race = s.race := by
  refine ⟨?_, ?_, ?_, ?_, ?_, ⟨?_, ?_⟩, ⟨?_, ?_, ?_⟩, ?_⟩ <;>
    simp [State.doMicro, State.doReadHalf, State.advance, ContextState.advance]
  split <;> rfl

/-- A write half writes its register with the masked latch; flags change by edges (DIR, OUT), not at all (IE), or as the register's
rule says; Race is marked for its register only (40_signal.md R104). -/
theorem writeHalf_frame (s : State) (r : Reg) (f : MaskFn) (sig : Signal) (n : Nat) :
    let t := afterMicro s (.writeHalf r f sig) n
    let v := maskFn f (s.ctx s.active).latch (maskOf s.params sig)
    t.dir = (if r = .dir then v else s.dir) ∧ t.out = (if r = .out then v else s.out) ∧
      t.ie = (if r = .ie then v else s.ie) ∧ t.ies = (if r = .ies then v else s.ies) ∧
      t.gie = s.gie ∧ (t.ctx s.active).res = (s.ctx s.active).res ∧ (r ≠ .ifg → t.flagLoss = s.flagLoss) ∧
      SameRaceBut r s t ∧ (r = .dir ∨ r = .out → FlagsFromEdges s t) ∧ (r ≠ .dir → r ≠ .out → SameLines s t) ∧
      (r = .ie → t.ifg = s.ifg) ∧ (r = .ifg → t.ifg = ifgWritten s.params.ifgWriteOne s.ifg v) ∧
      (r = .ies → t.ifg = ifgAfterIes s.ifg s.ies v s.nextDraw) := by
  refine ⟨?_, ?_, ?_, ?_, ?_, ?_, ?_, ?_, ?_, ?_, ?_, ?_, ?_⟩
  · simp [State.doMicro, State.doWriteHalf, State.advance, State.land, State.writeHalfValue]
  · simp [State.doMicro, State.doWriteHalf, State.advance, State.land, State.writeHalfValue]
  · simp [State.doMicro, State.doWriteHalf, State.advance, State.land, State.writeHalfValue]
  · simp [State.doMicro, State.doWriteHalf, State.advance, State.land, State.writeHalfValue]
  · simp [State.doMicro, State.doWriteHalf, State.advance, State.land]
  · simp only [State.doMicro, State.doWriteHalf, State.advance, State.land, ContextState.advance, setCtx_ctx_self,
      writeReg_ctx, markFlagLoss_ctx, markRace_ctx]
    split <;> rfl
  · intro h
    simp [State.doMicro, State.doWriteHalf, State.advance, State.land, h]
  · intro q hq
    simp [State.doMicro, State.doWriteHalf, State.advance, State.land, mark_has, hq]
  · intro h p
    have := writeReg_flags (s := (s.markRace s.active r).markFlagLoss r (maskOf s.params sig)
      (s.writeHalfValue s.active f sig)) (s.writeHalfValue s.active f sig) h p
    simpa [State.doMicro, State.doWriteHalf, State.advance, State.land] using this
  · intro a b
    cases r <;> first
      | contradiction
      | (constructor <;> simp [State.doMicro, State.doWriteHalf, State.advance, State.land, State.writeReg])
  · rintro rfl
    simp [State.doMicro, State.doWriteHalf, State.advance, State.land, State.writeReg]
  · rintro rfl
    simp [State.doMicro, State.doWriteHalf, State.advance, State.land, State.writeReg, State.writeHalfValue]
  · rintro rfl
    simp [State.doMicro, State.doWriteHalf, State.advance, State.land, State.writeReg, State.writeHalfValue, State.nextDraw]

/-- The Contention marks after a write half: those there were, and after DIR and OUT those of the opposed pins (10_state.md R32,
R45). -/
theorem writeHalf_contention (s : State) (r : Reg) (f : MaskFn) (sig : Signal) (n : Nat) (p : Pin) :
    let t := afterMicro s (.writeHalf r f sig) n
    onPin t.contention p = (onPin s.contention p || (decide (r = .dir ∨ r = .out) &&
      opposed (bit t.dir p) (bit t.out p) (onPin s.ext p))) := by
  have := writeReg_contention_get ((s.markRace s.active r).markFlagLoss r (maskOf s.params sig)
    (s.writeHalfValue s.active f sig)) r (s.writeHalfValue s.active f sig) p
  simpa [State.doMicro, State.doWriteHalf, State.advance, State.land] using this

/-- Only a write half of IFG clears a flag (10_state.md R25). -/
theorem afterMicro_keeps_flags (s : State) {i : Instr} {m : Micro} (hm : m ∈ microSteps i) (n : Nat)
    (h : ∀ f sig, m ≠ .writeHalf .ifg f sig) : NoFlagCleared s (afterMicro s m n) := by
  intro p hp
  obtain ⟨hw, hf⟩ := micro_writes i hm
  cases m with
  | readHalf r => simpa [State.doMicro, State.doReadHalf, State.advance] using hp
  | writeHalf r f sig =>
    cases r with
    | ifg => exact absurd rfl (h f sig)
    | inp => exact absurd rfl (hw f sig)
    | dir => simp [State.doMicro, State.doWriteHalf, State.land, State.advance, State.writeReg, hp]
    | out => simp [State.doMicro, State.doWriteHalf, State.land, State.advance, State.writeReg, hp]
    | ies => simp [State.doMicro, State.doWriteHalf, State.land, State.advance, State.writeReg, bit_ifgAfterIes, hp]
    | ie => simpa [State.doMicro, State.doWriteHalf, State.land, State.advance, State.writeReg] using hp
  | fullWrite r v =>
    obtain ⟨rfl, rfl⟩ := hf r v rfl
    simp [State.doMicro, State.doFullWrite, State.advance, State.writeReg, hp]
  | sample sig b => simpa [State.doMicro, State.doSample, State.advance] using hp
  | setGie b => simpa [State.doMicro, State.advance] using hp

/-- Masked updates of IE, IES and IFG are of A_CLK only; those of IFG clear, in two commands (60_exceptions.md R211). -/
theorem interrupt_writes (i : Instr) {r : Reg} {f : MaskFn} {sig : Signal} (h : .writeHalf r f sig ∈ microSteps i)
    (hr : r = .ie ∨ r = .ies ∨ r = .ifg) :
    sig = .aClk ∧ (r = .ifg → f = .clear ∧ (i = .acknowledgeClockInterrupt ∨ i = .resetToIdle)) := by
  have key : ∀ i ∈ Instr.all, ∀ m ∈ microSteps i,
      (match m with
        | .writeHalf r f sig => decide (r = .ie ∨ r = .ies ∨ r = .ifg → sig = .aClk ∧
            (r = .ifg → f = .clear ∧ (i = .acknowledgeClockInterrupt ∨ i = .resetToIdle)))
        | _ => true) = true := by decide
  have := key i (mem_all i) _ h
  simp only [decide_eq_true_eq] at this
  exact this hr

/-- The micro-steps of a format S command, by primitive (40_signal.md R110 to R115). -/
theorem microSteps_prim (op : SignalOp) (sig : Signal) :
    microSteps (.prim op sig) =
      match op with
      | .driveHigh => driveHighSteps sig
      | .driveLow => driveLowSteps sig
      | .release => releaseSteps sig
      | .configureOutput => configureOutputSteps sig
      | .readHigh => readHighSteps sig
      | .readLow => readLowSteps sig := by
  cases op <;> cases sig <;> rfl

end Sys2Proof.Machine
end

