-- ==== Sys2Proof/Laws/PerInstr.lean ====
section
/-! SUPPORT. Statements made for every command, one lemma per constructor: encoding (30_encoding.md R84 to R86). -/

namespace Sys2Proof.Laws.Encoding

/-- The command's fields are those of a valid word, its word decodes to it, and it has between one and eight micro-steps
(30_encoding.md R85, R86; 70_reset_and_hazards.md R263). -/
def Statement (i : Instr) : Prop :=
  i.wellFormed = true ∧ decode (encode i) = .ok i ∧
    0 < (Sys2Proof.Machine.microSteps i).length ∧ (Sys2Proof.Machine.microSteps i).length ≤ 8

/-- The four facts are decided by evaluation. -/
theorem of_eval {i : Instr} (h : i.wellFormed = true) (d : decode (encode i) = .ok i)
    (n : 0 < (Sys2Proof.Machine.microSteps i).length) : Statement i :=
  ⟨h, d, n, Sys2Proof.Machine.microSteps_length_le i⟩

theorem driveHighAClk : Statement .driveHighAClk := of_eval rfl rfl (by decide)
theorem driveHighAData : Statement .driveHighAData := of_eval rfl rfl (by decide)
theorem driveHighBClk : Statement .driveHighBClk := of_eval rfl rfl (by decide)
theorem driveHighBData : Statement .driveHighBData := of_eval rfl rfl (by decide)
theorem driveHighBSense : Statement .driveHighBSense := of_eval rfl rfl (by decide)
theorem driveLowAClk : Statement .driveLowAClk := of_eval rfl rfl (by decide)
theorem driveLowAData : Statement .driveLowAData := of_eval rfl rfl (by decide)
theorem driveLowBClk : Statement .driveLowBClk := of_eval rfl rfl (by decide)
theorem driveLowBData : Statement .driveLowBData := of_eval rfl rfl (by decide)
theorem driveLowBSense : Statement .driveLowBSense := of_eval rfl rfl (by decide)
theorem releaseAClk : Statement .releaseAClk := of_eval rfl rfl (by decide)
theorem releaseAData : Statement .releaseAData := of_eval rfl rfl (by decide)
theorem releaseBClk : Statement .releaseBClk := of_eval rfl rfl (by decide)
theorem releaseBData : Statement .releaseBData := of_eval rfl rfl (by decide)
theorem releaseBSense : Statement .releaseBSense := of_eval rfl rfl (by decide)
theorem configureOutputAClk : Statement .configureOutputAClk := of_eval rfl rfl (by decide)
theorem configureOutputAData : Statement .configureOutputAData := of_eval rfl rfl (by decide)
theorem configureOutputBClk : Statement .configureOutputBClk := of_eval rfl rfl (by decide)
theorem configureOutputBData : Statement .configureOutputBData := of_eval rfl rfl (by decide)
theorem configureOutputBSense : Statement .configureOutputBSense := of_eval rfl rfl (by decide)
theorem readHighAClk : Statement .readHighAClk := of_eval rfl rfl (by decide)
theorem readHighAData : Statement .readHighAData := of_eval rfl rfl (by decide)
theorem readHighBClk : Statement .readHighBClk := of_eval rfl rfl (by decide)
theorem readHighBData : Statement .readHighBData := of_eval rfl rfl (by decide)
theorem readHighBSense : Statement .readHighBSense := of_eval rfl rfl (by decide)
theorem readLowAClk : Statement .readLowAClk := of_eval rfl rfl (by decide)
theorem readLowAData : Statement .readLowAData := of_eval rfl rfl (by decide)
theorem readLowBClk : Statement .readLowBClk := of_eval rfl rfl (by decide)
theorem readLowBData : Statement .readLowBData := of_eval rfl rfl (by decide)
theorem readLowBSense : Statement .readLowBSense := of_eval rfl rfl (by decide)
theorem resetToIdle : Statement .resetToIdle := of_eval rfl rfl (by decide)
theorem disableClockInterrupt : Statement .disableClockInterrupt := of_eval rfl rfl (by decide)
theorem enableClockInterrupt : Statement .enableClockInterrupt := of_eval rfl rfl (by decide)
theorem acknowledgeClockInterrupt : Statement .acknowledgeClockInterrupt := of_eval rfl rfl (by decide)
theorem busAIdle : Statement .busAIdle := of_eval rfl rfl (by decide)
theorem busAInhibit : Statement .busAInhibit := of_eval rfl rfl (by decide)
theorem busAPrepareSend : Statement .busAPrepareSend := of_eval rfl rfl (by decide)
theorem busBTransmit : Statement .busBTransmit := of_eval rfl rfl (by decide)
theorem busBReceive : Statement .busBReceive := of_eval rfl rfl (by decide)
theorem eint : Statement .eint := of_eval rfl rfl (by decide)
theorem dint : Statement .dint := of_eval rfl rfl (by decide)

end Sys2Proof.Laws.Encoding
end

