-- ==== Sys2Proof/Laws/Step.lean ====
section
/-! SUPPORT. What a step can do, said once: the inversion of step, from which the invariants follow. -/

namespace Sys2Proof.Machine

/-- The kinds of step that give a next state (00_scope.md R15; 60_exceptions.md R212, R215). -/
inductive StepKind (s t : State) : Prop where
  | entry (turn : s.turn = .interrupt) (enabled : s.entryEnabled = true) (eq : t = s.afterTurn.enterInterrupt)
  | drive (p : Pin) (e : ExtDrive) (turn : s.turn = .drive p e) (allowed : (onPin s.params.extCap p).allows e = true)
      (eq : t = s.afterTurn.driveExt p e)
  | redraw (p : Pin) (turn : s.turn = .redraw p) (undetermined : s.undetermined p = true)
      (eq : t = s.afterTurn.redrawLines)
  | micro (i : Instr) (w : Word) (m : Micro) (turn : s.turn = .context) (fetch : s.fetch = some w)
      (decoded : decode w = .ok i) (here : (microSteps i)[(s.ctx s.active).j]? = some m)
      (eq : t = (s.afterTurn.doMicro s.active m).advance s.active (microSteps i).length)
  | refuse (w : Word) (r : RefuseReason) (turn : s.turn = .context) (fetch : s.fetch = some w)
      (invalid : decode w = .error r) (eq : t = s.afterTurn.raise r)
  | ret (turn : s.turn = .context) (fetch : s.fetch = none) (inIsr : s.inIsr = true)
      (eq : t = s.afterTurn.returnFromInterrupt)
  | idle (turn : s.turn = .context) (fetch : s.fetch = none) (inIsr : s.inIsr = false) (eq : t = s.afterTurn)

@[simp] theorem afterTurn_fetch (s : State) : s.afterTurn.fetch = s.fetch := by
  unfold State.fetch
  simp

/-- The turn taken is one the state admits (60_exceptions.md R212; 10_state.md R33). -/
theorem turn_admitted (s : State) : s.admits s.turn = true := by
  unfold State.turn
  split
  · assumption
  · rfl

/-- The chosen turn is taken where the state admits it. -/
theorem turn_eq {s : State} {u : Turn} (h : s.nextTurn = u) (ha : s.admits u = true) : s.turn = u := by
  subst h
  exact if_pos ha

/-- The entry's step (60_exceptions.md R213). -/
theorem step_interrupt {s : State} (hr : s.refused = none) (ht : s.turn = .interrupt) :
    step s = .next s.afterTurn.enterInterrupt := by
  unfold step State.move
  rw [hr, ht]

/-- The step of an external drive (10_state.md R33). -/
theorem step_drive {s : State} {p : Pin} {e : ExtDrive} (hr : s.refused = none) (ht : s.turn = .drive p e) :
    step s = .next (s.afterTurn.driveExt p e) := by
  unfold step State.move
  rw [hr, ht]

/-- The step of a re-draw (10_state.md R33). -/
theorem step_redraw {s : State} {p : Pin} (hr : s.refused = none) (ht : s.turn = .redraw p) :
    step s = .next s.afterTurn.redrawLines := by
  unfold step State.move
  rw [hr, ht]

/-- The move of a context's turn. -/
theorem move_context {s : State} (hr : s.refused = none) (ht : s.turn = .context) :
    s.move = s.afterTurn.contextMove := by
  unfold State.move
  rw [hr, ht]

/-- A step that answers a next state is of one of the kinds, and nothing was refused before it. -/
theorem step_kind {s t : State} (h : step s = .next t) : s.refused = none ∧ StepKind s t := by
  have ha := turn_admitted s
  unfold step State.move at h
  cases hr : s.refused with
  | some r => simp [hr] at h
  | none =>
    refine ⟨rfl, ?_⟩
    simp only [hr] at h
    cases ht : s.turn with
    | interrupt =>
      rw [ht] at h ha
      exact .entry ht ha (by simpa [eq_comm] using h)
    | drive p e =>
      rw [ht] at h ha
      exact .drive p e ht ha (by simpa [eq_comm] using h)
    | redraw p =>
      rw [ht] at h ha
      exact .redraw p ht ha (by simpa [eq_comm] using h)
    | context =>
      simp only [ht, State.contextMove, afterTurn_fetch] at h
      cases hf : s.fetch with
      | none =>
        cases hi : s.inIsr with
        | true => exact .ret ht hf hi (by simpa [hf, hi, eq_comm] using h)
        | false => exact .idle ht hf hi (by simpa [hf, hi, eq_comm] using h)
      | some w =>
        cases hd : decode w with
        | error r => exact .refuse w r ht hf hd (by simpa [hf, hd, eq_comm] using h)
        | ok i =>
          simp only [hf, hd, exec_eq, runMicro_next, afterTurn_active, afterTurn_ctx] at h
          obtain ⟨m, hm, rfl⟩ := h
          exact .micro i w m ht hf hd hm rfl

end Sys2Proof.Machine
end

