-- ==== Sys2Proof/Tests/Slice0.lean ====
section
/-! SUPPORT. The model's own tests: the checks' smoke tests, the encodings written out from 30_encoding.md R82 and R84, single steps
with the results of 95_test_vectors.md, and for each statement a witness that its hypotheses can be met. -/

namespace Sys2Proof.Tests

open Sys2Proof.Machine

/-! ### Helpers -/

/-- A state in the configuration EX of 95_test_vectors.md: every pin undriven and pulled up, the next turn the running context's. -/
def exState (dir out ie ies ifg lvl : Byte) : State :=
  { State.resetWith Params.ex [] (fun _ => 0) (Vector.replicate 8 .z) 0 (fun _ => 0) with
    dir := dir, out := out, ie := ie, ies := ies, ifg := ifg, lvl := lvl, turns := [.context], draws := [0] }

/-- The foreground before the micro-step `j` of its command. -/
def atMicro (s : State) (j : Nat) : State := { s with fg := ⟨0, j, 0, none, none⟩ }

/-- The foreground before the write half `j` of its command, the register just latched. -/
def half (s : State) (j : Nat) (r : Reg) : State := { s with fg := ⟨0, j, s.readReg r, some r, none⟩ }

/-- The foreground's program. -/
def running (s : State) (p : List Word) : State := { s with fgProgram := p }

/-- The outcome is a next state of which `f` holds. -/
def gives (o : Host.Outcome State Fault Refusal) (f : State → Bool) : Bool :=
  match o with
  | .next t => f t
  | _ => false

/-- Every line is settled, said so that it is evaluated. -/
def settledB (s : State) : Bool := decide (∀ (p : Pin) (b : Bool), s.levelAt p = some b → bit s.lvl p = b)

theorem settled_of_eval {s : State} (h : settledB s = true) : LinesSettled s := by
  simp only [settledB, decide_eq_true_eq] at h
  exact h

/-! ### The checks refuse ill-formed terms (30_encoding.md R81, R86; 00_scope.md R9; 92_eei_decisions.md D2) -/

theorem test_wellformed_reserved_opcode_low : Fields.wellFormed ⟨0b00110, 0b000⟩ = false := by decide
theorem test_wellformed_reserved_opcode_mid : Fields.wellFormed ⟨0b10001, 0b000⟩ = false := by decide
theorem test_wellformed_reserved_opcode_high : Fields.wellFormed ⟨0b11101, 0b000⟩ = false := by decide
theorem test_wellformed_reserved_selector : Fields.wellFormed ⟨0b00101, 0b101⟩ = false := by decide
theorem test_wellformed_nonzero_selector_c : Fields.wellFormed ⟨0b10000, 0b001⟩ = false := by decide
theorem test_wellformed_nonzero_selector_h : Fields.wellFormed ⟨0b11111, 0b111⟩ = false := by decide
theorem test_wellformed_boundaries : Fields.wellFormed ⟨0b00101, 0b100⟩ = true ∧ Fields.wellFormed ⟨0b01000, 0b000⟩ = true ∧
    Fields.wellFormed ⟨0b10000, 0b000⟩ = true ∧ Fields.wellFormed ⟨0b11110, 0b000⟩ = true := by decide
theorem test_wellformed_program : programWellFormed [0x40, 0x05] = false ∧ programWellFormed [0x40, 0x04] = true := by decide

/-- Two signals on one pin are no wiring. -/
theorem test_wellformed_wiring : Params.wellFormed Params.ex = true ∧
    Params.wellFormed { Params.ex with wiring := { Params.ex.wiring with bSense := 0 } } = false := by decide

/-- Two registers at one address are no address map. -/
theorem test_wellformed_addresses :
    Params.wellFormed { Params.ex with regAddrs := { Params.ex.regAddrs with ifg := 0 } } = false := by decide

/-! ### Encodings (30_encoding.md R82, R84, R85, R88; vectors K1 to K17) -/

theorem test_decode_drive_high : decode 0b00000000#8 = .ok .driveHighAClk ∧ decode 0b00000001#8 = .ok .driveHighAData ∧
    decode 0b00000010#8 = .ok .driveHighBClk ∧ decode 0b00000011#8 = .ok .driveHighBData ∧
    decode 0b00000100#8 = .ok .driveHighBSense := by decide
theorem test_decode_drive_low : decode 0b00001000#8 = .ok .driveLowAClk ∧ decode 0b00001001#8 = .ok .driveLowAData ∧
    decode 0b00001010#8 = .ok .driveLowBClk ∧ decode 0b00001011#8 = .ok .driveLowBData ∧
    decode 0b00001100#8 = .ok .driveLowBSense := by decide
theorem test_decode_release : decode 0b00010000#8 = .ok .releaseAClk ∧ decode 0b00010001#8 = .ok .releaseAData ∧
    decode 0b00010010#8 = .ok .releaseBClk ∧ decode 0b00010011#8 = .ok .releaseBData ∧
    decode 0b00010100#8 = .ok .releaseBSense := by decide
theorem test_decode_configure_output : decode 0b00011000#8 = .ok .configureOutputAClk ∧
    decode 0b00011001#8 = .ok .configureOutputAData ∧ decode 0b00011010#8 = .ok .configureOutputBClk ∧
    decode 0b00011011#8 = .ok .configureOutputBData ∧ decode 0b00011100#8 = .ok .configureOutputBSense := by decide
theorem test_decode_read_high : decode 0b00100000#8 = .ok .readHighAClk ∧ decode 0b00100001#8 = .ok .readHighAData ∧
    decode 0b00100010#8 = .ok .readHighBClk ∧ decode 0b00100011#8 = .ok .readHighBData ∧
    decode 0b00100100#8 = .ok .readHighBSense := by decide
theorem test_decode_read_low : decode 0b00101000#8 = .ok .readLowAClk ∧ decode 0b00101001#8 = .ok .readLowAData ∧
    decode 0b00101010#8 = .ok .readLowBClk ∧ decode 0b00101011#8 = .ok .readLowBData ∧
    decode 0b00101100#8 = .ok .readLowBSense := by decide
theorem test_decode_interrupt_lifecycle : decode 0b01000000#8 = .ok .resetToIdle ∧
    decode 0b01001000#8 = .ok .disableClockInterrupt ∧ decode 0b01010000#8 = .ok .enableClockInterrupt ∧
    decode 0b01011000#8 = .ok .acknowledgeClockInterrupt := by decide
theorem test_decode_bus_states : decode 0b01100000#8 = .ok .busAIdle ∧ decode 0b01101000#8 = .ok .busAInhibit ∧
    decode 0b01110000#8 = .ok .busAPrepareSend ∧ decode 0b01111000#8 = .ok .busBTransmit ∧
    decode 0b10000000#8 = .ok .busBReceive := by decide
theorem test_decode_host : decode 0b11110000#8 = .ok .eint ∧ decode 0b11111000#8 = .ok .dint := by decide

theorem test_decode_reserved : decode 0x05#8 = .error .reservedSelector ∧ decode 0x2D#8 = .error .reservedSelector ∧
    decode 0x30#8 = .error .reservedOpcode ∧ decode 0x3F#8 = .error .reservedOpcode ∧
    decode 0x41#8 = .error .nonZeroSelector ∧ decode 0x88#8 = .error .reservedOpcode ∧
    decode 0xEF#8 = .error .reservedOpcode ∧ decode 0xF9#8 = .error .nonZeroSelector ∧
    decode 0xFF#8 = .error .nonZeroSelector := by decide

theorem test_encode : encode .driveHighAData = 0x01#8 ∧ encode .readLowBSense = 0x2C#8 ∧ encode .busBReceive = 0x80#8 ∧
    encode .dint = 0xF8#8 := by decide

theorem test_table_word : decodeTableWord 8 0x1B = some .configureOutputBData ∧ decodeTableWord 8 0x05 = none := by decide

theorem test_assembly : assembleLine "  bus_a_idle  ; both lines up".toList = some .busAIdle ∧
    assembleLine "read_low b_sense".toList = some .readLowBSense ∧ assembleLine "read_low".toList = none := by decide

theorem test_assembly_spells_every_command : ∀ i ∈ Instr.all, assembleLine i.asm.toList = some i := by decide

/-! ### Masks (vectors H1 to H7) -/

theorem test_apply_mask : applyMask 0xA5 0x10 = 0xB5#8 ∧ applyMask 0xFF 0x01 = 0xFF#8 ∧ applyMask 0x00 0x80 = 0x80#8 := by decide
theorem test_clear_mask : clearMask 0xA5 0x01 = 0xA4#8 ∧ clearMask 0x00 0x04 = 0x00#8 ∧ clearMask 0xFF 0x80 = 0x7F#8 := by decide
theorem test_masks : maskOf Params.ex .aClk = 0x01#8 ∧ maskOf Params.ex .bSense = 0x02#8 ∧ maskOf Params.ex .bClk = 0x04#8 ∧
    maskOf Params.ex .bData = 0x08#8 ∧ maskOf Params.ex .aData = 0x10#8 ∧ foreignMask Params.ex = 0xE0#8 := by decide

/-! ### Signal primitives, at their deciding micro-step (40_signal.md R110 to R115; masks of H7; vectors S1 to S16) -/

theorem test_drive_high_signals :
    gives (exec .driveHighAClk (half (exState 0 0 0 0 0 0xFF) 1 .out)) (fun t => t.out == 0x01 && t.fg.k == 1) = true ∧
    gives (exec .driveHighAData (half (exState 0 0 0 0 0 0xFF) 1 .out)) (fun t => t.out == 0x10) = true ∧
    gives (exec .driveHighBClk (half (exState 0 0 0 0 0 0xFF) 1 .out)) (fun t => t.out == 0x04) = true ∧
    gives (exec .driveHighBData (half (exState 0 0 0 0 0 0xFF) 1 .out)) (fun t => t.out == 0x08) = true ∧
    gives (exec .driveHighBSense (half (exState 0 0 0 0 0 0xFF) 1 .out)) (fun t => t.out == 0x02) = true := by decide

theorem test_drive_low_signals :
    gives (exec .driveLowAClk (half (exState 0 0xFF 0 0 0 0xFF) 1 .out)) (fun t => t.out == 0xFE) = true ∧
    gives (exec .driveLowAData (half (exState 0 0xFF 0 0 0 0xFF) 1 .out)) (fun t => t.out == 0xEF) = true ∧
    gives (exec .driveLowBClk (half (exState 0 0xFF 0 0 0 0xFF) 1 .out)) (fun t => t.out == 0xFB) = true ∧
    gives (exec .driveLowBData (half (exState 0 0xFF 0 0 0 0xFF) 1 .out)) (fun t => t.out == 0xF7) = true ∧
    gives (exec .driveLowBSense (half (exState 0 0xFF 0 0 0 0xFF) 1 .out)) (fun t => t.out == 0xFD) = true := by decide

theorem test_release_signals :
    gives (exec .releaseAClk (half (exState 0xFF 0xFF 0 0 0 0xFF) 1 .dir)) (fun t => t.dir == 0xFE) = true ∧
    gives (exec .releaseAData (half (exState 0xFF 0xFF 0 0 0 0xFF) 1 .dir)) (fun t => t.dir == 0xEF) = true ∧
    gives (exec .releaseBClk (half (exState 0xFF 0xFF 0 0 0 0xFF) 1 .dir)) (fun t => t.dir == 0xFB) = true ∧
    gives (exec .releaseBData (half (exState 0xFF 0xFF 0 0 0 0xFF) 1 .dir)) (fun t => t.dir == 0xF7) = true ∧
    gives (exec .releaseBSense (half (exState 0xFF 0xFF 0 0 0 0xFF) 1 .dir)) (fun t => t.dir == 0xFD) = true := by decide

theorem test_configure_output_signals :
    gives (exec .configureOutputAClk (half (exState 0 0xFF 0 0 0 0xFF) 1 .dir)) (fun t => t.dir == 0x01) = true ∧
    gives (exec .configureOutputAData (half (exState 0 0xFF 0 0 0 0xFF) 1 .dir)) (fun t => t.dir == 0x10) = true ∧
    gives (exec .configureOutputBClk (half (exState 0 0xFF 0 0 0 0xFF) 1 .dir)) (fun t => t.dir == 0x04) = true ∧
    gives (exec .configureOutputBData (half (exState 0 0xFF 0 0 0 0xFF) 1 .dir)) (fun t => t.dir == 0x08) = true ∧
    gives (exec .configureOutputBSense (half (exState 0 0xFF 0 0 0 0xFF) 1 .dir)) (fun t => t.dir == 0x02) = true := by decide

/-- Each line's level alone, the four other signal lines at the opposite level. -/
theorem test_read_high_signals :
    gives (exec .readHighAClk (exState 0 0 0 0 0 0x01)) (fun t => t.fg.res == some true) = true ∧
    gives (exec .readHighAData (exState 0 0 0 0 0 0x10)) (fun t => t.fg.res == some true) = true ∧
    gives (exec .readHighBClk (exState 0 0 0 0 0 0x04)) (fun t => t.fg.res == some true) = true ∧
    gives (exec .readHighBData (exState 0 0 0 0 0 0x08)) (fun t => t.fg.res == some true) = true ∧
    gives (exec .readHighBSense (exState 0 0 0 0 0 0xFD)) (fun t => t.fg.res == some false && t.fg.k == 1) = true := by decide

theorem test_read_low_signals :
    gives (exec .readLowAClk (exState 0 0 0 0 0 0xFE)) (fun t => t.fg.res == some true) = true ∧
    gives (exec .readLowAData (exState 0 0 0 0 0 0xEF)) (fun t => t.fg.res == some true) = true ∧
    gives (exec .readLowBClk (exState 0 0 0 0 0 0xFB)) (fun t => t.fg.res == some true) = true ∧
    gives (exec .readLowBData (exState 0 0 0 0 0 0xF7)) (fun t => t.fg.res == some true) = true ∧
    gives (exec .readLowBSense (exState 0 0 0 0 0 0xFD)) (fun t => t.fg.res == some true) = true := by decide

/-- S1, S2. -/
theorem test_drive_high_keeps_the_rest :
    gives (exec .driveHighAData (half (exState 0 0xA5 0 0 0 0xFF) 1 .out)) (fun t => t.out == 0xB5) = true ∧
    gives (exec .driveHighAData (half (exState 0 0xB5 0 0 0 0xFF) 1 .out)) (fun t => t.out == 0xB5) = true := by decide

/-- S4, S5. -/
theorem test_drive_low_keeps_the_rest :
    gives (exec .driveLowAClk (half (exState 0 0x00 0 0 0 0xFF) 1 .out)) (fun t => t.out == 0x00) = true ∧
    gives (exec .driveLowBData (half (exState 0 0xE9 0 0 0 0xFF) 1 .out)) (fun t => t.out == 0xE1) = true := by decide

/-- S6, S7. -/
theorem test_release_keeps_the_rest :
    gives (exec .releaseBClk (half (exState 0x0F 0xFF 0 0 0 0xFF) 1 .dir)) (fun t => t.dir == 0x0B && t.out == 0xFF) = true ∧
    gives (exec .releaseBClk (half (exState 0xF4 0xFF 0 0 0 0xFF) 1 .dir)) (fun t => t.dir == 0xF0) = true := by decide

/-- The read half writes nothing but the latch. -/
theorem test_read_half :
    gives (exec .driveHighAData (exState 0 0xA5 0 0 0 0xFF))
      (fun t => t.out == 0xA5 && t.fg.latch == 0xA5 && t.fg.inflight == some .out && t.fg.j == 1 && t.fg.k == 0) = true := by
  decide

/-- S13, the write: a released line the remote side pulls low stays low. -/
theorem test_drive_high_released_line :
    gives (exec .driveHighAClk (half { exState 0 0 0 0 0 0xFE with ext := (Vector.replicate 8 .z).set 0 .low } 1 .out))
      (fun t => t.out == 0x01 && t.lvl == 0xFE) = true := by decide

/-- S14, S15, S16. -/
theorem test_configure_output_edge :
    gives (exec .configureOutputAClk (half (exState 0 0 0 1 0 0xFF) 1 .dir))
      (fun t => t.dir == 0x01 && t.lvl == 0xFE && t.ifg == 0x01) = true ∧
    gives (exec .configureOutputAClk (half (exState 0 0 0 0 0 0xFF) 1 .dir))
      (fun t => t.dir == 0x01 && t.lvl == 0xFE && t.ifg == 0x00) = true ∧
    gives (exec .configureOutputAClk (half
      { exState 0 0 0 1 0 0xFF with params := { Params.ex with flagNeedsEnable := true } } 1 .dir))
      (fun t => t.dir == 0x01 && t.lvl == 0xFE && t.ifg == 0x00) = true := by decide

/-- S17: a contended line is marked, at either level. -/
theorem test_contention :
    gives (exec .driveHighBData (half { exState 0x08 0x08 0 0 0 0xFF with
      ext := (Vector.replicate 8 .z).set 3 .low, draws := [0x00] } 1 .out))
      (fun t => onPin t.contention 3 && t.lvl == 0xF7) = true ∧
    gives (exec .driveHighBData (half { exState 0x08 0x08 0 0 0 0xFF with
      ext := (Vector.replicate 8 .z).set 3 .low, draws := [0x08] } 1 .out))
      (fun t => onPin t.contention 3 && t.lvl == 0xFF) = true := by decide

/-- S19, the handler's write: the foreground in flight on OUT marks Race, and its write loses the handler's bit. -/
theorem test_lost_update :
    gives (exec .driveHighBClk { half (exState 0 0 0 0 0 0xFF) 1 .out with
      inIsr := true, isr := ⟨0, 1, 0, some .out, none⟩ }) (fun t => t.out == 0x04 && t.race.out && !t.race.dir) = true ∧
    gives (exec .driveHighAData (half { exState 0 0x04 0 0 0 0xFF with isr := ⟨0, 0, 0, none, none⟩ } 1 .out |>
      fun s => { s with fg := ⟨0, 1, 0, some .out, none⟩ })) (fun t => t.out == 0x10) = true := by decide

/-! ### Composites, at a deciding micro-step (41_buspins.md R130 to R138; vectors B1 to B20) -/

/-- T4 and B1, step 1: the full write; all lines rise and set their flags. -/
theorem test_reset_to_idle_first_step :
    gives (exec .resetToIdle (exState 0xFF 0 0 0 0xFF 0)) (fun t => t.dir == 0 && t.lvl == 0xFF && t.ifg == 0xFF) = true := by
  decide

/-- B1, steps 3, 5 and 7: the flag cleared, the edge select set with either flag, the enable set. -/
theorem test_reset_to_idle_later_steps :
    gives (exec .resetToIdle (half (exState 0 0 0 0 0xFF 0xFF) 2 .ifg)) (fun t => t.ifg == 0xFE) = true ∧
    gives (exec .resetToIdle (half (exState 0 0 0 0 0xFE 0xFF) 4 .ies)) (fun t => t.ies == 1 && t.ifg == 0xFE) = true ∧
    gives (exec .resetToIdle (half { exState 0 0 0 0 0xFE 0xFF with draws := [0xFF] } 4 .ies))
      (fun t => t.ies == 1 && t.ifg == 0xFF) = true ∧
    gives (exec .resetToIdle (half (exState 0 0 0x80 1 0 0xFF) 6 .ie)) (fun t => t.ie == 0x81 && t.fg.k == 1) = true := by decide

/-- B3, B4. -/
theorem test_disable_clock_interrupt :
    gives (exec .disableClockInterrupt (half (exState 0 0 0xFF 0 0 0xFF) 1 .ie)) (fun t => t.ie == 0xFE) = true ∧
    gives (exec .disableClockInterrupt (half (exState 0 0 0 0 0 0xFF) 1 .ie)) (fun t => t.ie == 0x00) = true := by decide

/-- B5. -/
theorem test_enable_clock_interrupt :
    gives (exec .enableClockInterrupt (half (exState 0 0 0x80 0 0 0xFF) 1 .ie)) (fun t => t.ie == 0x81) = true := by decide

/-- B6, for both effects of writing a one. -/
theorem test_acknowledge :
    gives (exec .acknowledgeClockInterrupt (half (exState 0 0 0 0 0x81 0xFF) 1 .ifg)) (fun t => t.ifg == 0x80) = true ∧
    gives (exec .acknowledgeClockInterrupt (half { exState 0 0 0 0 0x81 0xFF with
      params := { Params.ex with ifgWriteOne := .noEffect } } 1 .ifg)) (fun t => t.ifg == 0x80) = true := by decide

/-- B20, the write half: a flag set between the halves is lost and marked. -/
theorem test_acknowledge_loses_a_flag :
    gives (exec .acknowledgeClockInterrupt { exState 0 0 0 0x81 0x81 0x7F with fg := ⟨0, 1, 0x01, some .ifg, none⟩ })
      (fun t => t.ifg == 0x00 && onPin t.flagLoss 7 && !onPin t.flagLoss 0) = true := by decide

/-- B8, step 2: the clock rises while still an output; the rising edge is not selected. -/
theorem test_bus_a_idle_clock_high :
    gives (exec .busAIdle (half (exState 0x01 0x10 0 1 0 0xFE) 1 .out))
      (fun t => t.out == 0x11 && t.lvl == 0xFF && t.ifg == 0 && t.fg.k == 0 && t.fg.j == 2) = true := by decide

/-- B9, the last step: the data line released. -/
theorem test_bus_a_idle_last :
    gives (exec .busAIdle (half (exState 0xF0 0xFF 0 0 0 0xFF) 7 .dir)) (fun t => t.dir == 0xE0 && t.fg.k == 1 && t.fg.j == 0) = true := by
  decide

/-- B10, step 4: the block's own falling edge. -/
theorem test_bus_a_inhibit_edge :
    gives (exec .busAInhibit (half (exState 0 0x10 0 1 0 0xFF) 3 .dir))
      (fun t => t.dir == 0x01 && t.lvl == 0xFE && t.ifg == 0x01) = true := by decide

/-- B12, step 6 (decision D11), and B11, step 8. -/
theorem test_bus_a_inhibit_data :
    gives (exec .busAInhibit (half (exState 0x01 0x00 0 0 0 0xFE) 5 .out)) (fun t => t.out == 0x10) = true ∧
    gives (exec .busAInhibit (half (exState 0xF1 0xFE 0 0 0 0xFE) 7 .dir)) (fun t => t.dir == 0xE1 && t.fg.k == 1) = true := by decide

/-- B14, the last step. -/
theorem test_bus_a_prepare_send :
    gives (exec .busAPrepareSend (half (exState 0xE0 0xF1 0 0 0 0xFF) 7 .dir)) (fun t => t.dir == 0xF0 && t.out == 0xF1) = true := by
  decide

/-- B19, step 8: the data line driven high against the remote side. -/
theorem test_bus_a_prepare_send_contention :
    gives (exec .busAPrepareSend (half { exState 0x00 0x11 0 0 0 0xEF with ext := (Vector.replicate 8 .z).set 4 .low } 7 .dir))
      (fun t => t.dir == 0x10 && onPin t.contention 4) = true := by decide

/-- B16: the clock an output at step 6, the data line at step 8. -/
theorem test_bus_b_transmit :
    gives (exec .busBTransmit (half (exState 0xE0 0xEF 0 0 0 0xFF) 5 .dir)) (fun t => t.dir == 0xE4) = true ∧
    gives (exec .busBTransmit (half (exState 0xE4 0xEF 0 0 0 0xFF) 7 .dir)) (fun t => t.dir == 0xEC && t.fg.k == 1) = true := by decide

/-- B18: the data output bit at step 2, the data line released at step 6. -/
theorem test_bus_b_receive :
    gives (exec .busBReceive (half (exState 0xEC 0xE3 0 0 0 0xF3) 1 .out)) (fun t => t.out == 0xEB) = true ∧
    gives (exec .busBReceive (half (exState 0xE8 0xEB 0 0 0 0xFF) 5 .dir)) (fun t => t.dir == 0xE0 && t.fg.k == 1) = true := by decide

/-! ### Host core and interrupts (42_host.md R170, R171; vectors E1 to E12) -/

/-- E11. -/
theorem test_eint : gives (exec .eint (exState 0 0 0 0 0 0xFF)) (fun t => t.gie && t.fg.k == 1) = true := by decide

/-- E12. -/
theorem test_dint : gives (exec .dint { exState 0 0 0x81 0 0x18 0xFF with gie := true })
    (fun t => !t.gie && t.ie == 0x81 && t.ifg == 0x18) = true := by decide

/-- E1 to E4: a step of the outside pulls pin 0 down or lets it up. -/
theorem test_edges :
    gives (step { exState 0 0 0 1 0 0xFF with turns := [.drive 0 .low] }) (fun t => t.lvl == 0xFE && t.ifg == 0x01) = true ∧
    gives (step { exState 0 0 0 0 0 0xFF with turns := [.drive 0 .low] }) (fun t => t.lvl == 0xFE && t.ifg == 0x00) = true ∧
    gives (step { exState 0 0 0 0 0 0xFE with turns := [.drive 0 .z], ext := (Vector.replicate 8 .z).set 0 .low })
      (fun t => t.lvl == 0xFF && t.ifg == 0x01) = true ∧
    gives (step { exState 0 0 0 1 0 0xFF with
      turns := [.drive 0 .low], params := { Params.ex with flagNeedsEnable := true } })
      (fun t => t.lvl == 0xFE && t.ifg == 0x00) = true := by decide

/-- E5. -/
theorem test_entry : gives (step { exState 0 0 1 0 1 0xFF with gie := true, turns := [.interrupt] })
    (fun t => t.inIsr && !t.gie && t.isr.k == 0 && t.isr.j == 0 && t.ifg == 1) = true := by decide

/-- E6, E7, E8, E10. -/
theorem test_entry_enabled :
    (exState 0 0 1 0 1 0xFF).irq = true ∧ (exState 0 0 1 0 1 0xFF).entryEnabled = false ∧
    State.entryEnabled { exState 0 0 0 0 1 0xFF with gie := true } = false ∧
    State.entryEnabled { exState 0 0 0x80 0 0x80 0xFF with gie := true } = true ∧
    State.entryEnabled { exState 0 0 1 0 1 0xFF with gie := true, inIsr := true } = false := by decide

/-- E9: with no acknowledge the entry is enabled again. -/
theorem test_return : gives (step { exState 0 0 1 0 1 0xFF with inIsr := true, isrProgram := [] })
    (fun t => !t.inIsr && t.gie && t.entryEnabled) = true := by decide

/-! ### Register writes (vectors W1 to W6) -/

theorem test_write_ifg : (State.writeReg (exState 0 0 0 0 0x81 0) .ifg 0x80).ifg = 0x80#8 ∧
    (State.writeReg (exState 0 0 0 0 0 0) .ifg 0xFF).ifg = 0xFF#8 ∧
    (State.writeReg { exState 0 0 0 0 0 0 with params := { Params.ex with ifgWriteOne := .noEffect } } .ifg 0xFF).ifg = 0x00#8 ∧
    (State.writeReg (exState 0 0 0 0 0x81 0) .ifg 0x01).ifg = 0x01#8 := by decide

theorem test_write_ies : (State.writeReg (exState 0 0 0 0 0 0) .ies 0x01).ifg = 0x00#8 ∧
    (State.writeReg { exState 0 0 0 0 0 0 with draws := [0xFF] } .ies 0x01).ifg = 0x01#8 ∧
    (State.writeReg { exState 0 0 0 1 0 0 with draws := [0xFF] } .ies 0x01).ifg = 0x00#8 := by decide

/-- A bus access at a register's address, and one elsewhere, which raises the refusal (20_memory.md R61). -/
theorem test_bus_access :
    (exState 0 0 0 0 0 0xA5).busRead 2 = (some 0xA5#8, exState 0 0 0 0 0 0xA5) ∧
    ((exState 0 0 0 0 0 0xA5).busRead 6).1 = none ∧
    ((exState 0 0 0 0 0 0xA5).busRead 6).2.refused = some .notARegister ∧
    ((exState 0 0 0 0 0 0xA5).busWrite 6 1).refused = some .notARegister := by decide

/-! ### From reset, and refusals -/

/-- The word placed at reset is the first command to run (log entry 8). -/
theorem test_first_command : gives (step (State.reset.withFetchWord 8 0x68)) (fun t => t.fg.j == 1 && t.fg.inflight == some .out) = true := by
  decide

/-- A reserved word raises its refusal, and then nothing moves (60_exceptions.md R201). -/
theorem test_refused : gives (step (running (exState 0 0 0 0 0 0xFF) [0x05])) (fun t => t.refused == some .reservedSelector) = true ∧
    step { exState 0 0 0 0 0 0xFF with refused := some .reservedOpcode } = .refused (.halted .reservedOpcode) :=
  ⟨by decide, rfl⟩

/-! ### Witnesses: the hypotheses of each statement can be met together -/

/-- A clause each of R85, at the ends of its ranges. -/
theorem witness_DecodingFollowsTheFields :
    (opField 0x2F = 5#5 ∧ selField 0x2F = 7#3) ∧ (opField 0x05 = 0#5 ∧ selField 0x05 = 5#3) ∧
    (opField 0x2C = 5#5 ∧ selField 0x2C = 4#3) ∧ (opField 0x41 = 8#5 ∧ selField 0x41 = 1#3) ∧
    (opField 0x87 = 16#5 ∧ selField 0x87 = 7#3) ∧ (opField 0xF1 = 30#5 ∧ selField 0xF1 = 1#3) ∧
    (opField 0x40 = 8#5 ∧ selField 0x40 = 0#3) ∧ (opField 0x80 = 16#5 ∧ selField 0x80 = 0#3) ∧
    (opField 0xF8 = 31#5 ∧ selField 0xF8 = 0#3) ∧ opField 0x30 = 6#5 ∧ opField 0x3F = 7#5 ∧ opField 0x88 = 17#5 ∧
    opField 0xEF = 29#5 := by decide

theorem witness_DecodeInvertsEncode : decode 0x2C#8 = .ok .readLowBSense := by decide

theorem witness_StepRunsTheDecodedCommand :
    let s := running (exState 0 0 0 0 0 0xFF) [0x40]
    s.refused = none ∧ s.turn = .context ∧ s.fetch = some 0x40#8 ∧ decode 0x40#8 = .ok .resetToIdle := by decide

/-- The last micro-step of the longest commands, and the only one of a read. -/
theorem witness_EveryMicroStepCompletes :
    ((half (exState 0xF0 0xFF 0 0 0 0xFF) 7 .dir).ctx .fg).j < (microSteps .busAIdle).length ∧
    ((exState 0 0 0 0 0 0xFF).ctx .fg).j < (microSteps .readHighAClk).length := by decide

theorem witness_SignalMasksAreSingleDisjointBits : Params.ex.wiring.distinct = true ∧ Signal.aClk ≠ Signal.aData := by decide

theorem witness_ReadHalfLatchesItsRegister :
    (microSteps .driveHighAClk)[((exState 0 0 0 0 0 0xFF).ctx .fg).j]? = some (.readHalf .out) ∧
    (microSteps .busAIdle)[((atMicro (exState 0 0 0 0 0 0xFF) 6).ctx .fg).j]? = some (.readHalf .dir) := by decide

/-- A register without and with the flag rule, the latch holding the register. -/
theorem witness_WriteHalfPutsTheMaskedLatchBack :
    (let s := half (exState 0 0xA5 0 0 0 0xFF) 1 .out;
      (microSteps .driveLowAClk)[(s.ctx s.active).j]? = some (.writeHalf .out .clear .aClk) ∧
        (s.ctx s.active).latch = s.readReg .out) ∧
    (let s := half (exState 0 0 0 0 0x81 0xFF) 1 .ifg;
      (microSteps .acknowledgeClockInterrupt)[(s.ctx s.active).j]? = some (.writeHalf .ifg .clear .aClk) ∧
        (s.ctx s.active).latch = s.readReg .ifg) ∧
    (let s : State := half { exState 0 0x10 0 0 0 0xEF with ext := (Vector.replicate 8 .z).set 4 .low } 1 .dir;
      (microSteps .configureOutputAData)[(s.ctx s.active).j]? = some (.writeHalf .dir .apply .aData) ∧
        onPin s.ext 4 = .low) := by decide

/-- Each register a write half has: DIR, OUT, IE, IES, IFG. -/
theorem witness_WriteHalfLeavesAllElse :
    (microSteps .releaseBClk)[((half (exState 0xFF 0 0 0 0 0xFF) 1 .dir).ctx .fg).j]? = some (.writeHalf .dir .clear .bClk) ∧
    (microSteps .driveLowAClk)[((half (exState 0 0xA5 0 0 0 0xFF) 1 .out).ctx .fg).j]? = some (.writeHalf .out .clear .aClk) ∧
    (microSteps .resetToIdle)[((half (exState 0 0 0 1 0 0xFF) 6 .ie).ctx .fg).j]? = some (.writeHalf .ie .apply .aClk) ∧
    (microSteps .resetToIdle)[((half (exState 0 0 0 0 0xFE 0xFF) 4 .ies).ctx .fg).j]? = some (.writeHalf .ies .apply .aClk) ∧
    (microSteps .resetToIdle)[((half (exState 0 0 0 0 0xFF 0xFF) 2 .ifg).ctx .fg).j]? = some (.writeHalf .ifg .clear .aClk) := by
  decide

/-- The start of a command, with distinct positions: what ResetToIdleWritesAllOfDir, the four statements of the masked primitives,
ReadsReturnTheLineLevel, ResetToIdleArmsTheClockInterrupt, ClockInterruptIsDisabledAndEnabled, AcknowledgeClearsTheClockFlag, the
five of the bus-state composites and HostCommandsWriteTheGlobalEnable ask. -/
theorem witness_command_start : AtStart (exState 0 0 0 0 0 0xFF) ∧ (exState 0 0 0 0 0 0xFF).params.wiring.distinct = true := by
  decide

/-- An output whose remote side opposes neither level, and each one-sided case. -/
theorem witness_DrivenLevelIsReadBack :
    (let s := exState 0x08 0 0 0 0 0xF7;
      AtStart s ∧ bit s.dir (s.params.wiring.pos .bData) = true ∧ onPin s.ext (s.params.wiring.pos .bData) ≠ .low ∧
        onPin s.ext (s.params.wiring.pos .bData) ≠ .high) ∧
    (let s : State := { exState 0x08 0x08 0 0 0 0xFF with ext := (Vector.replicate 8 .z).set 3 .high };
      AtStart s ∧ bit s.dir (s.params.wiring.pos .bData) = true ∧ onPin s.ext (s.params.wiring.pos .bData) ≠ .low) ∧
    (let s : State := { exState 0x08 0 0 0 0 0xF7 with ext := (Vector.replicate 8 .z).set 3 .low };
      AtStart s ∧ bit s.dir (s.params.wiring.pos .bData) = true ∧ onPin s.ext (s.params.wiring.pos .bData) ≠ .high) := by
  decide

/-- A command in the middle of its write half answers a next state: the frames' hypothesis, for each of their commands. -/
theorem witness_OutputCommandsFrame :
    (∃ t, exec (.prim .driveHigh .aData) (half (exState 0 0 0 0 0 0xFF) 1 .out) = .next t) ∧
    ∃ t, exec (.prim .driveLow .aData) (half (exState 0 0 0 0 0 0xFF) 1 .out) = .next t := ⟨⟨_, rfl⟩, ⟨_, rfl⟩⟩

theorem witness_DirectionCommandsFrame :
    (∃ t, exec (.prim .release .bClk) (half (exState 0 0 0 0 0 0xFF) 1 .dir) = .next t) ∧
    ∃ t, exec (.prim .configureOutput .bClk) (half (exState 0 0 0 0 0 0xFF) 1 .dir) = .next t := ⟨⟨_, rfl⟩, ⟨_, rfl⟩⟩

theorem witness_InterruptLifecycleFrame :
    (∃ t, exec .resetToIdle (exState 0xFF 0 0 0 0 0) = .next t) ∧
    (∃ t, exec .disableClockInterrupt (half (exState 0 0 1 0 0 0xFF) 1 .ie) = .next t) ∧
    (∃ t, exec .enableClockInterrupt (half (exState 0 0 0 0 0 0xFF) 1 .ie) = .next t) ∧
    ∃ t, exec .acknowledgeClockInterrupt (half (exState 0 0 0 0 1 0xFF) 1 .ifg) = .next t :=
  ⟨⟨_, rfl⟩, ⟨_, rfl⟩, ⟨_, rfl⟩, ⟨_, rfl⟩⟩

theorem witness_BusStateCommandsFrame :
    (∃ t, exec .busAIdle (half (exState 1 0 0 0 0 0xFF) 7 .dir) = .next t) ∧
    (∃ t, exec .busAInhibit (half (exState 1 0 0 0 0 0xFF) 7 .dir) = .next t) ∧
    (∃ t, exec .busAPrepareSend (half (exState 1 0 0 0 0 0xFF) 7 .dir) = .next t) ∧
    (∃ t, exec .busBTransmit (half (exState 1 0 0 0 0 0xFF) 7 .dir) = .next t) ∧
    (∃ t, exec .busBReceive (half (exState 1 0 0 0 0 0xFF) 5 .dir) = .next t) ∧
    bit (foreignMask (exState 1 0 0 0 0 0xFF).params) 7 = true :=
  ⟨⟨_, rfl⟩, ⟨_, rfl⟩, ⟨_, rfl⟩, ⟨_, rfl⟩, ⟨_, rfl⟩, by decide⟩

/-- Distinct addresses; and the address after the last one is none of them. -/
theorem witness_BusAccessesAreRegisterAccesses :
    Params.ex.regAddrs.distinct = true ∧ ∀ r, Params.ex.regAddrs.addr r ≠ 6 :=
  ⟨by decide, fun r => by cases r <;> decide⟩

theorem witness_OutsideStepDrivesOnePin :
    let s : State := { exState 0 0 0 1 0 0xFF with turns := [.drive 7 .low] }
    s.refused = none ∧ s.nextTurn = .drive 7 .low ∧ (onPin s.params.extCap 7).allows .low = true := by decide

/-- A contended line, and a floating one. -/
theorem witness_UndeterminedLineTakesAnyLevel :
    (let s : State := { exState 0x08 0x08 0 0 0 0xFF with ext := (Vector.replicate 8 .z).set 3 .low };
      s.refused = none ∧ s.levelAt 3 = none ∧ opposed (bit s.dir 3) (bit s.out 3) (onPin s.ext 3) = true) ∧
    (let s : State := { exState 0 0 0 0 0 0xFF with params := { Params.ex with pull := (Vector.replicate 8 .up).set 3 .none } };
      s.refused = none ∧ s.levelAt 3 = none) := by decide

/-- Without the enable gate, and with it on an armed clock. -/
theorem witness_InhibitMakesItsOwnFallingEdge :
    (let s := exState 0 0x11 0 1 0 0xFF;
      AtStart s ∧ bit s.lvl (s.params.wiring.pos .aClk) = true ∧ bit s.ies (s.params.wiring.pos .aClk) = true ∧
        onPin s.ext (s.params.wiring.pos .aClk) ≠ .high ∧ s.params.flagNeedsEnable = false) ∧
    (let s : State := { exState 0 0x11 1 1 0 0xFF with params := { Params.ex with flagNeedsEnable := true } };
      AtStart s ∧ bit s.lvl (s.params.wiring.pos .aClk) = true ∧ bit s.ies (s.params.wiring.pos .aClk) = true ∧
        onPin s.ext (s.params.wiring.pos .aClk) ≠ .high ∧ bit s.ie (s.params.wiring.pos .aClk) = true) := by decide

theorem witness_InterruptEntry :
    let s : State := { exState 0 0 0x80 0 0x80 0xFF with gie := true, turns := [.interrupt] }
    s.gie = true ∧ s.ie &&& s.ifg ≠ 0#8 ∧ s.inIsr = false ∧ s.refused = none ∧ s.nextTurn = .interrupt := by decide

theorem witness_InterruptReturn :
    let s : State := { exState 0 0 0 0 0 0xFF with inIsr := true, isrProgram := [0x58], isr := ⟨1, 0, 0, none, none⟩ }
    s.inIsr = true ∧ s.isr.k = s.isrProgram.length ∧ s.isr.j = 0 ∧ s.refused = none ∧ s.turn = .context := by decide

/-- E10: the handler runs, the request is up, and its `eint` completes. -/
theorem witness_NoNestedEntry :
    let s : State := { exState 0 0 1 0 1 0xFF with inIsr := true, isrProgram := [0xF0], turns := [.interrupt] }
    s.inIsr = true ∧ s.irq = true ∧ ∃ t, exec .eint s = .next t := ⟨rfl, by decide, ⟨_, rfl⟩⟩

theorem witness_RequestIsAnEnabledFlag : (exState 0 0 1 0 1 0xFF).gie = false := by decide

/-- The foreground's `eint` from a state with interrupts disabled: also the case in which they get enabled. -/
theorem witness_NoInterruptBeforeEint :
    let s := running (exState 0 0 0 0 0 0xFF) [0xF0]
    s.inIsr = false ∧ s.gie = false ∧ ∃ t, step s = .next t ∧ t.gie = true := ⟨rfl, rfl, ⟨_, rfl, rfl⟩⟩

theorem witness_ReservedWordStopsEveryAgent :
    (let s := running (exState 0 0 0 0 0 0xFF) [0xFF];
      s.refused = none ∧ s.turn = .context ∧ s.fetch = some 0xFF#8 ∧ decode 0xFF#8 = .error .nonZeroSelector) ∧
    State.refused { exState 0 0 0 0 0 0xFF with refused := some .notARegister } = some .notARegister := by decide

theorem witness_FinalStateIsQuiet : (exState 0 0 0 0 0 0xFF).final = true ∧ (exState 0 0 0 0 0 0xFF).turn = .context := by decide

/-- A settled state, and the step that pulls a line down. -/
theorem witness_StepKeepsLinesSettled :
    LinesSettled { exState 0 0 0 0 0 0xFF with turns := [.drive 0 .low] } ∧
      ∃ t, step { exState 0 0 0 0 0 0xFF with turns := [.drive 0 .low] } = .next t :=
  ⟨settled_of_eval (by decide), ⟨_, rfl⟩⟩

/-- A step that changes a drive, from drives within what the remote side may do. -/
theorem witness_StepKeepsDrivesWithinCap :
    let s : State := { exState 0 0 0 0 0 0xFF with turns := [.drive 0 .low] }
    DrivesWithinCap s ∧ ∃ t, step s = .next t ∧ t.ext ≠ s.ext :=
  ⟨of_decide_eq_true (p := ∀ p : Pin, _) (by decide), ⟨_, rfl, by decide⟩⟩

/-- The state of S19 before the handler's write: both contexts in flight on OUT. -/
def preempted : State :=
  { half (exState 0 0 0 0 0 0xFF) 1 .out with
    fgProgram := [0x01], isrProgram := [0x02], inIsr := true, isr := ⟨0, 1, 0, some .out, none⟩ }

theorem preempted_sequenced : Sequenced preempted :=
  ⟨⟨.writeHalf .out .apply .aData, rfl, rfl⟩, fun _ => ⟨.writeHalf .out .apply .bClk, rfl, rfl⟩, nofun⟩

theorem witness_StepKeepsSequencing : Sequenced preempted ∧ ∃ t, step preempted = .next t := ⟨preempted_sequenced, ⟨_, rfl⟩⟩

theorem witness_NoStepChangesKeptBits : Sequenced preempted ∧ LatchesKeep preempted ∧ ∃ t, step preempted = .next t := by
  refine ⟨preempted_sequenced, ?_, ⟨_, rfl⟩⟩
  intro c r h
  cases c <;> cases r <;> rfl

theorem witness_RaceNeedsAPreemptedUpdate : Sequenced preempted ∧ preempted.race.has .out = false ∧
    ∃ t, step preempted = .next t ∧ t.race.has .out = true := ⟨preempted_sequenced, rfl, ⟨_, rfl, by decide⟩⟩

theorem witness_HandlerLeavesTheForegroundInPlace : preempted.inIsr = true ∧ ∃ t, step preempted = .next t := ⟨rfl, ⟨_, rfl⟩⟩

/-- The foreground before the write half of its acknowledge, flags of pins 0 and 7 up. -/
def acknowledging : State := running (half (exState 0 0 1 0 0x81 0xFF) 1 .ifg) [0x58]

theorem witness_NoUpdateSetsAFlagAgain : Sequenced acknowledging ∧ LatchedFlagsHold acknowledging ∧
    (∃ t, step acknowledging = .next t) ∧
    acknowledging.move = .run .acknowledgeClockInterrupt acknowledging.afterTurn ∧
    (microSteps .acknowledgeClockInterrupt)[(acknowledging.ctx acknowledging.active).j]? =
      some (.writeHalf .ifg .clear .aClk) := by
  refine ⟨⟨⟨.writeHalf .ifg .clear .aClk, rfl, rfl⟩, nofun, fun _ => rfl⟩, ⟨?_, nofun⟩, ⟨_, rfl⟩, rfl, rfl⟩
  intro c h p _ hp
  cases c with
  | fg => exact hp
  | isr => exact absurd h (by decide)

theorem witness_FlagsStayUntilAcknowledged : ∃ t, step acknowledging = .next t ∧ bit acknowledging.ifg 0 = true ∧
    bit t.ifg 0 = false := ⟨_, rfl, by decide, by decide⟩

theorem witness_MarksAreSticky : ∃ t, step acknowledging = .next t := ⟨_, rfl⟩

theorem witness_ProgramsAndParametersAreNeverWritten : ∃ t, step acknowledging = .next t := ⟨_, rfl⟩

end Sys2Proof.Tests
end

section
/-! The statements of 00_scope.md. Lines and cursors are shown of every reset state `State.resetWith` gives, since `State.reset` is
one of them; what no step writes is read off the kinds of step. -/

namespace Sys2Proof.Machine

/-! ### The parameters at reset (00_scope.md R9; 92_eei_decisions.md D2) -/

/-- The signals' positions are distinct, whatever the free parameters are. -/
theorem config_wiring_distinct : Config.params.wiring.distinct = true := by
  unfold Config.params
  dsimp only
  split
  · assumption
  · decide

/-- The registers' addresses are distinct, whatever the free parameters are. -/
theorem config_regAddrs_distinct : Config.params.regAddrs.distinct = true := by
  unfold Config.params
  dsimp only
  split
  · assumption
  · decide

/-- The drives at reset are cut to what the remote side may do, whatever is drawn (10_state.md R48). -/
theorem resetExt_allowed (params : Params) (drawn : Vector ExtDrive 8) (p : Pin) :
    (onPin params.extCap p).allows (onPin (resetExt params drawn) p) = true := by
  rw [resetExt, onPin_ofFn]
  split
  · assumption
  · rfl

/-! ### Invariants that hold where nothing is in flight (10_state.md R40) -/

/-- With no update in flight there is no latch to hold a kept bit. -/
theorem latchesKeep_of_landed {s : State} (h : ∀ c, (s.ctx c).inflight = none) : LatchesKeep s := by
  intro c r hc
  simp [h c] at hc

/-- With no update in flight there is no latch to hold a flag. -/
theorem latchedFlagsHold_of_landed {s : State} (h : ∀ c, (s.ctx c).inflight = none) : LatchedFlagsHold s where
  held c hc := by simp [h c] at hc
  nested hfg := by simp [show s.fg.inflight = none from h .fg] at hfg

/-! ### Every reset state (10_state.md R48) -/

section
variable {params : Params} {isr : List Word} {regs : Reg → Byte} {ext : Vector ExtDrive 8} {levels : Byte}
  {latch : Context → Byte}

/-- The levels at reset are those of R32. -/
theorem resetWith_settled : LinesSettled (.resetWith params isr regs ext levels latch) := by
  intro p b h
  have hl : lineLevel (bit (regs .dir) p) (bit (regs .out) p) (onPin ext p) (onPin params.pull p) = some b := h
  simp [State.resetWith, hl]

/-- No context has an update in flight at reset. -/
theorem resetWith_landed (c : Context) :
    ((State.resetWith params isr regs ext levels latch).ctx c).inflight = none := by
  cases c <;> rfl

/-- The foreground is at the end of its empty program, and the handler is not active. -/
theorem resetWith_sequenced : Sequenced (.resetWith params isr regs ext levels latch) where
  fg := ⟨rfl, rfl, rfl⟩
  isr hi := nomatch hi
  idle _ := rfl

end

/-! ### What no step writes (00_scope.md R8; 10_state.md R29, R38) -/

/-- Only a command's micro-step needs an argument, its frame: the other kinds of step update named fields that are not these three. -/
theorem StepKind.launch_inputs {s t : State} (h : StepKind s t) :
    t.params = s.params ∧ t.fgProgram = s.fgProgram ∧ t.isrProgram = s.isrProgram := by
  cases h with
  | entry _ _ eq => subst eq; exact ⟨rfl, rfl, rfl⟩
  | drive _ _ _ _ eq => subst eq; exact ⟨rfl, rfl, rfl⟩
  | redraw _ _ _ eq => subst eq; exact ⟨rfl, rfl, rfl⟩
  | micro i _ m _ _ _ here eq =>
    subst eq
    have frame : SameOutside s.afterTurn (afterMicro s.afterTurn m (microSteps i).length) :=
      afterMicro_outside (List.mem_of_getElem? here) _
    exact ⟨frame.params, frame.fgProgram, frame.isrProgram⟩
  | refuse _ _ _ _ _ eq => subst eq; exact ⟨rfl, rfl, rfl⟩
  | ret _ _ _ eq => subst eq; exact ⟨rfl, rfl, rfl⟩
  | idle _ _ _ eq => subst eq; exact ⟨rfl, rfl, rfl⟩

/-- Settles O55: every kind of step leaves the launch inputs. -/
theorem programsAndParametersAreNeverWritten : Obligations.ProgramsAndParametersAreNeverWritten :=
  fun _ _ h => (step_kind h).2.launch_inputs

/-- Settles O46: reset's lines and drives are as drawn within R32 and `extCap`, and nothing is in flight. -/
theorem resetMeetsTheInvariants : Obligations.ResetMeetsTheInvariants := by
  have landed : ∀ c, (State.reset.ctx c).inflight = none := resetWith_landed
  refine ⟨?_, resetWith_settled, resetExt_allowed _ _, resetWith_sequenced,
    latchesKeep_of_landed landed, latchedFlagsHold_of_landed landed⟩
  show Config.params.wellFormed = true
  simp [Params.wellFormed, config_wiring_distinct, config_regAddrs_distinct]

end Sys2Proof.Machine
end

section
/-! The statements of 10_state.md. The rules of one micro-step come first, then what every step keeps (lines, sequencing, latched
flags, marks), then registers and the outside, and last the commands run with nothing in between. -/

namespace Sys2Proof.Machine

/-! ### One micro-step (10_state.md R39; 40_signal.md R104 to R106) -/

/-- The register a micro-step writes (40_signal.md R104, R105). -/
def Micro.writes : Micro → Option Reg
  | .writeHalf r _ _ => some r
  | .fullWrite r _ => some r
  | _ => none

/-- Where the cursor names a micro-step, exec runs it (10_state.md R39). -/
theorem exec_micro {i : Instr} {s : State} {m : Micro} (h : (microSteps i)[(s.ctx s.active).j]? = some m) :
    exec i s = .next (afterMicro s m (microSteps i).length) := by
  rw [exec_eq, runMicro_next]
  exact ⟨m, h, rfl⟩

section
variable (s : State) (m : Micro) (n : Nat)

/-- A micro-step moves the running context's cursor on (10_state.md R39). -/
theorem afterMicro_cursor :
    ((afterMicro s m n).ctx s.active).k = ((s.ctx s.active).advance n).k ∧
    ((afterMicro s m n).ctx s.active).j = ((s.ctx s.active).advance n).j := by
  obtain ⟨hk, hj, -⟩ := doMicro_ctx s m
  simp only [State.advance, setCtx_ctx_self, ContextState.advance, hk, hj]
  constructor <;> split <;> rfl

/-- A Race mark appears exactly where the other context is in flight on the register written (10_state.md R44). -/
theorem afterMicro_race (q : Reg) :
    (afterMicro s m n).race.has q =
      (s.race.has q || decide (m.writes = some q ∧ (s.ctx s.active.other).inflight = some q)) := by
  have marked (r : Reg) : (s.race.mark r (decide ((s.ctx s.active.other).inflight = some r))).has q =
      (s.race.has q || decide (some r = some q ∧ (s.ctx s.active.other).inflight = some q)) := by
    by_cases h : r = q
    · simp [mark_has, h]
    · simp [mark_has, h, Ne.symm h]
  cases m with
  | readHalf r => simp [State.doMicro, State.doReadHalf, State.advance, Micro.writes]
  | writeHalf r f sig => simpa [State.doMicro, State.doWriteHalf, State.land, State.advance, Micro.writes] using marked r
  | fullWrite r v => simpa [State.doMicro, State.doFullWrite, State.advance, Micro.writes] using marked r
  | sample sig w => simp [State.doMicro, State.doSample, State.advance, Micro.writes]
  | setGie b => simp [State.doMicro, State.advance, Micro.writes]

/-- A micro-step leaves the Contention marks there were (10_state.md R43). -/
theorem afterMicro_keeps_contention {p : Pin} (h : onPin s.contention p = true) :
    onPin (afterMicro s m n).contention p = true := by
  cases m with
  | readHalf r => simpa [State.doMicro, State.doReadHalf, State.advance] using h
  | writeHalf r f sig => simp [writeHalf_contention, h]
  | fullWrite r v =>
    simpa [State.doMicro, State.doFullWrite, State.advance] using writeReg_contention (s.markRace s.active r) r v p h
  | sample sig w => simpa [State.doMicro, State.doSample, State.advance] using h
  | setGie b => simpa [State.doMicro, State.advance] using h

/-- A masked write of IFG adds FlagLoss marks; no micro-step clears one (10_state.md R43, R46). -/
theorem afterMicro_keeps_flagLoss {p : Pin} (h : onPin s.flagLoss p = true) :
    onPin (afterMicro s m n).flagLoss p = true := by
  cases m with
  | readHalf r => simpa [State.doMicro, State.doReadHalf, State.advance] using h
  | writeHalf r f sig =>
    by_cases hr : r = .ifg <;> simp [State.doMicro, State.doWriteHalf, State.land, State.advance, hr, h]
  | fullWrite r v => simpa [State.doMicro, State.doFullWrite, State.advance] using h
  | sample sig w => simpa [State.doMicro, State.doSample, State.advance] using h
  | setGie b => simpa [State.doMicro, State.advance] using h

/-- Lines move in a register write only, which settles them (10_state.md R32). -/
theorem afterMicro_settled (h : LinesSettled s) : LinesSettled (afterMicro s m n) := by
  simp only [afterMicro, State.advance, setCtx_settled]
  cases m with
  | readHalf r => simpa [State.doMicro, State.doReadHalf] using h
  | writeHalf r f sig =>
    have marked : LinesSettled ((s.markRace s.active r).markFlagLoss r (maskOf s.params sig)
        (s.writeHalfValue s.active f sig)) := h
    simpa [State.doMicro, State.doWriteHalf, State.land] using writeReg_settled marked r _
  | fullWrite r v =>
    have marked : LinesSettled (s.markRace s.active r) := h
    exact writeReg_settled marked r v
  | sample sig w => simpa [State.doMicro, State.doSample] using h
  | setGie b => exact h

/-- Before a micro-step a context is in flight on what that micro-step awaits; after it, on what it latches (10_state.md R40). -/
theorem afterMicro_inflight (h : (s.ctx s.active).inflight = m.awaits) :
    ((afterMicro s m n).ctx s.active).inflight = m.latches := by
  rw [(afterMicro_latch m n).1]
  cases m with
  | readHalf r => rfl
  | writeHalf r f sig => rfl
  | fullWrite r v => exact h
  | sample sig w => exact h
  | setGie b => exact h

end

/-! ### Whose context runs (10_state.md R37) -/

/-- While the handler is active the handler runs. -/
theorem active_isr {s : State} (h : s.inIsr = true) : s.active = .isr := by simp [State.active, h]

/-- While it is not, the foreground does. -/
theorem active_fg {s : State} (h : s.inIsr = false) : s.active = .fg := by simp [State.active, h]

/-! ### Moves and their steps (60_exceptions.md R212; 42_host.md R172) -/

/-- A command's move: nothing is refused, the turn is the running context's and the word at its cursor decodes. -/
theorem move_run_iff {s u : State} {i : Instr} :
    s.move = .run i u ↔ s.refused = none ∧ s.turn = .context ∧ u = s.afterTurn ∧
      ∃ w, s.fetch = some w ∧ decode w = .ok i := by
  unfold State.move
  cases hr : s.refused with
  | some r => simp
  | none =>
    cases ht : s.turn with
    | context =>
      cases hf : s.fetch with
      | none => simp [State.contextMove, hf]
      | some w => cases hd : decode w <;> simp [State.contextMove, hf, hd, and_comm, eq_comm]
    | interrupt => simp
    | drive p e => simp
    | redraw p => simp

/-- A command's move steps by exec (42_host.md R172). -/
theorem step_of_move_run {s u : State} {i : Instr} (h : s.move = .run i u) : step s = exec i u := by
  unfold step
  rw [h]

/-- A step faults only where the running context's cursor names no micro-step of its command (log entry 12). -/
theorem step_fault {s : State} {f : Fault} (h : step s = .fault f) :
    ∃ w i, s.fetch = some w ∧ decode w = .ok i ∧ (microSteps i)[(s.ctx s.active).j]? = none := by
  cases hm : s.move with
  | halt r => simp [step, hm] at h
  | settle t => simp [step, hm] at h
  | run i u =>
    obtain ⟨-, -, rfl, w, hf, hd⟩ := move_run_iff.mp hm
    refine ⟨w, i, hf, hd, ?_⟩
    cases hj : (microSteps i)[(s.ctx s.active).j]? with
    | none => rfl
    | some m =>
      rw [step_of_move_run hm, exec_micro (m := m) (by simpa using hj)] at h
      cases h

/-! ### A step runs a micro-step of a command, or no command (00_scope.md R15) -/

/-- The step from `s` to `t` runs the micro-step `m` of the command `i`. -/
structure RunsMicro (i : Instr) (m : Micro) (s t : State) : Prop where
  move : s.move = .run i s.afterTurn
  here : (microSteps i)[(s.ctx s.active).j]? = some m
  eq : t = afterMicro s.afterTurn m (microSteps i).length

/-- What a step that runs no command keeps: the interrupt's entry and return, the outside, a refusal and the idle step. -/
structure RunsNoCommand (s t : State) : Prop where
  params : t.params = s.params
  fg : t.fg = s.fg
  latches : ∀ c r, (t.ctx c).inflight = some r → (s.ctx c).inflight = some r ∧ (t.ctx c).latch = (s.ctx c).latch
  race : t.race = s.race
  flagLoss : t.flagLoss = s.flagLoss
  contention : ∀ p : Pin, onPin s.contention p = true → onPin t.contention p = true
  flags : NoFlagCleared s t
  settled : LinesSettled s → LinesSettled t

section
variable {s t : State}

/-- The micro-step is one of the command's. -/
theorem RunsMicro.mem {i : Instr} {m : Micro} (h : RunsMicro i m s t) : m ∈ microSteps i := List.mem_of_getElem? h.here

/-- Flags set by edges: none is cleared (10_state.md R34). -/
theorem FlagsFromEdges.kept (h : FlagsFromEdges s t) : NoFlagCleared s t :=
  fun p hp => by rw [h p, hp, Bool.true_or]

/-- Contexts left as they are have the latches they had. -/
theorem latches_of_same (hfg : t.fg = s.fg) (hisr : t.isr = s.isr) (c : Context) (r : Reg)
    (h : (t.ctx c).inflight = some r) : (s.ctx c).inflight = some r ∧ (t.ctx c).latch = (s.ctx c).latch := by
  have same : t.ctx c = s.ctx c := by
    cases c with
    | fg => exact hfg
    | isr => exact hisr
  rw [same] at h ⊢
  exact ⟨h, rfl⟩

/-- A recomputation of the lines, whatever the drives are now, runs no command (10_state.md R32 to R34). -/
theorem recompute_runsNoCommand (s : State) (ext : Vector ExtDrive 8) :
    RunsNoCommand s { s.afterTurn with ext := ext }.recompute where
  params := rfl
  fg := rfl
  latches := latches_of_same rfl rfl
  race := rfl
  flagLoss := rfl
  contention p h := by simp [h]
  flags := (recompute_flags { s.afterTurn with ext := ext }).kept
  settled _ := recompute_settled _

/-- A step of any kind but a micro-step's runs no command. -/
theorem StepKind.micro_or_none (hr : s.refused = none) (h : StepKind s t) :
    (∃ i m, RunsMicro i m s t) ∨ RunsNoCommand s t := by
  cases h with
  | entry _ _ eq =>
    subst eq
    refine .inr ⟨rfl, rfl, fun c r hc => ?_, rfl, rfl, fun _ => id, fun _ => id, id⟩
    cases c with
    | fg => exact ⟨hc, rfl⟩
    | isr => cases hc
  | drive p e _ _ eq => subst eq; exact .inr (recompute_runsNoCommand s (s.ext.set p e))
  | redraw _ _ _ eq => subst eq; exact .inr (recompute_runsNoCommand s s.ext)
  | micro i w m turn fetch decoded here eq =>
    exact .inl ⟨i, m, move_run_iff.mpr ⟨hr, turn, rfl, w, fetch, decoded⟩, here, eq⟩
  | refuse _ _ _ _ _ eq =>
    subst eq; exact .inr ⟨rfl, rfl, latches_of_same rfl rfl, rfl, rfl, fun _ => id, fun _ => id, id⟩
  | ret _ _ _ eq =>
    subst eq; exact .inr ⟨rfl, rfl, latches_of_same rfl rfl, rfl, rfl, fun _ => id, fun _ => id, id⟩
  | idle _ _ _ eq =>
    subst eq; exact .inr ⟨rfl, rfl, latches_of_same rfl rfl, rfl, rfl, fun _ => id, fun _ => id, id⟩

/-- A step that gives a next state runs a micro-step, or no command. -/
theorem step_micro_or_none (h : step s = .next t) : (∃ i m, RunsMicro i m s t) ∨ RunsNoCommand s t :=
  (step_kind h).2.micro_or_none (step_kind h).1

/-- Where the move is a command's, the step runs the micro-step at the cursor. -/
theorem runsMicro_of_move {i : Instr} {m : Micro} (h : step s = .next t) (move : s.move = .run i s.afterTurn)
    (here : (microSteps i)[(s.ctx s.active).j]? = some m) : RunsMicro i m s t where
  move := move
  here := here
  eq := by
    rw [step_of_move_run move, exec_micro (s := s.afterTurn) (by simpa using here)] at h
    exact (Host.Outcome.next.inj h).symm

end

/-- Settles O47: a step that moves lines recomputes them all. -/
theorem stepKeepsLinesSettled : Obligations.StepKeepsLinesSettled := by
  intro s t hs h
  rcases step_micro_or_none h with ⟨i, m, run⟩ | none_run
  · rw [run.eq]
    exact afterMicro_settled s.afterTurn m _ hs
  · exact none_run.settled hs

/-! ### Sequencing (10_state.md R39, R40) -/

/-- A context at the first micro-step of a place of its program, with nothing in flight, is sequenced. -/
theorem contextSequenced_of_start {program : List Word} {x : ContextState} (hk : x.k ≤ program.length) (hj : x.j = 0)
    (hf : x.inflight = none) : ContextSequenced program x := by
  unfold ContextSequenced
  split
  next h =>
    have := List.getElem?_eq_none_iff.mp h
    exact ⟨by omega, hj, hf⟩
  next w h =>
    split
    · exact ⟨hj, hf⟩
    next i hd =>
      obtain ⟨m, hm, ha⟩ := first_micro_awaits i
      exact ⟨m, by rw [hj, hm], by rw [hf, ha]⟩

/-- Where the word decodes, a sequenced context's cursor names a micro-step, and it is in flight on what that awaits. -/
theorem ContextSequenced.micro {program : List Word} {x : ContextState} {w : Word} {i : Instr}
    (h : ContextSequenced program x) (hw : program[x.k]? = some w) (hd : decode w = .ok i) :
    ∃ m, (microSteps i)[x.j]? = some m ∧ x.inflight = m.awaits := by
  simpa [ContextSequenced, hw, hd] using h

/-- At its program's end a sequenced context has nothing in flight. -/
theorem ContextSequenced.landed {program : List Word} {x : ContextState} (h : ContextSequenced program x)
    (hw : program[x.k]? = none) : x.inflight = none := by
  simp only [ContextSequenced, hw] at h
  exact h.2.2

/-- The running context is sequenced. -/
theorem Sequenced.active {s : State} (h : Sequenced s) : ContextSequenced (s.program s.active) (s.ctx s.active) := by
  cases hi : s.inIsr with
  | true => rw [active_isr hi]; exact h.isr hi
  | false => rw [active_fg hi]; exact h.fg

/-- While a command's micro-step is next, the running context is in flight on what that micro-step awaits. -/
theorem Sequenced.inflight {s : State} {w : Word} {i : Instr} {m : Micro} (h : Sequenced s) (hw : s.fetch = some w)
    (hd : decode w = .ok i) (hm : (microSteps i)[(s.ctx s.active).j]? = some m) :
    (s.ctx s.active).inflight = m.awaits := by
  obtain ⟨m', hm', ha⟩ := h.active.micro hw hd
  rw [hm, Option.some_inj] at hm'
  rw [ha, hm']

/-- A step of the running context keeps the invariant where it keeps that context sequenced (60_exceptions.md R220). -/
theorem Sequenced.of_outside {s t : State} (h : Sequenced s) (frame : SameOutside s t)
    (ha : ContextSequenced (s.program s.active) (t.ctx s.active)) : Sequenced t := by
  have other := frame.other
  cases hi : s.inIsr with
  | true =>
    rw [active_isr hi] at ha other
    exact ⟨by rw [frame.fgProgram, show t.fg = s.fg from other]; exact h.fg,
      fun _ => by rw [frame.isrProgram]; exact ha, fun hf => by simp [frame.inIsr, hi] at hf⟩
  | false =>
    rw [active_fg hi] at ha other
    exact ⟨by rw [frame.fgProgram]; exact ha, fun ht => by simp [frame.inIsr, hi] at ht,
      fun _ => by rw [show t.isr = s.isr from other]; exact h.idle hi⟩

/-- A micro-step leaves the running context at the next micro-step of its command, or at the start of the next place. -/
theorem afterMicro_sequenced {s : State} {w : Word} {i : Instr} {m : Micro} (h : Sequenced s) (hw : s.fetch = some w)
    (hd : decode w = .ok i) (hm : (microSteps i)[(s.ctx s.active).j]? = some m) :
    Sequenced (afterMicro s m (microSteps i).length) := by
  have inflight := afterMicro_inflight s m (microSteps i).length (h.inflight hw hd hm)
  obtain ⟨hk, hj⟩ := afterMicro_cursor s m (microSteps i).length
  refine h.of_outside (afterMicro_outside (List.mem_of_getElem? hm) _) ?_
  by_cases hn : (s.ctx s.active).j + 1 < (microSteps i).length
  · obtain ⟨m', hm'⟩ : ∃ m', (microSteps i)[(s.ctx s.active).j + 1]? = some m' := ⟨_, List.getElem?_eq_getElem hn⟩
    simp only [ContextState.advance, hn, if_true] at hk hj
    have hw' : (s.program s.active)[((afterMicro s m (microSteps i).length).ctx s.active).k]? = some w := by
      rw [hk]; exact hw
    simp only [ContextSequenced, hw', hd]
    exact ⟨m', by rw [hj, hm'], by rw [inflight, next_micro_awaits hm hm']⟩
  · simp only [ContextState.advance, hn, if_false] at hk hj
    have inside : (s.ctx s.active).k < (s.program s.active).length := (List.getElem?_eq_some_iff.mp hw).1
    exact contextSequenced_of_start (by rw [hk]; exact inside) hj (by rw [inflight, last_micro_latches hm hn])

/-- Every kind of step keeps the sequencing invariant (10_state.md R39, R40; 60_exceptions.md R213, R215). -/
theorem StepKind.sequenced {s t : State} (hs : Sequenced s) (h : StepKind s t) : Sequenced t := by
  cases h with
  | entry _ _ eq =>
    subst eq
    exact ⟨hs.fg, fun _ => contextSequenced_of_start (Nat.zero_le _) rfl rfl, nofun⟩
  | drive _ _ _ _ eq => subst eq; exact ⟨hs.fg, hs.isr, hs.idle⟩
  | redraw _ _ _ eq => subst eq; exact ⟨hs.fg, hs.isr, hs.idle⟩
  | micro i w m _ fetch decoded here eq =>
    subst eq
    have turned : Sequenced s.afterTurn := ⟨hs.fg, hs.isr, hs.idle⟩
    exact afterMicro_sequenced turned (by simpa using fetch) decoded (by simpa using here)
  | refuse _ _ _ _ _ eq => subst eq; exact ⟨hs.fg, hs.isr, hs.idle⟩
  | ret _ fetch inIsr eq =>
    subst eq
    rw [State.fetch, active_isr inIsr] at fetch
    exact ⟨hs.fg, nofun, fun _ => (hs.isr inIsr).landed fetch⟩
  | idle _ _ _ eq => subst eq; exact ⟨hs.fg, hs.isr, hs.idle⟩

/-- Settles O49: each kind of step keeps the invariant, and a fault needs a cursor the invariant excludes. -/
theorem stepKeepsSequencing : Obligations.StepKeepsSequencing := by
  intro s hs
  refine ⟨fun t h => (step_kind h).2.sequenced hs, fun f h => ?_⟩
  obtain ⟨w, i, hw, hd, past⟩ := step_fault h
  obtain ⟨m, here, -⟩ := hs.active.micro hw hd
  simp [past] at here

/-! ### Latched flags (70_reset_and_hazards.md R260) -/

section
variable {s : State}

/-- Where no flag is cleared and every latch in flight on IFG was so before, the latched flags still hold. -/
theorem LatchedFlagsHold.of_latches {t : State} (h : LatchedFlagsHold s) (hp : t.params = s.params) (hf : NoFlagCleared s t)
    (hl : ∀ c, (t.ctx c).inflight = some .ifg → (s.ctx c).inflight = some .ifg ∧ (t.ctx c).latch = (s.ctx c).latch) :
    LatchedFlagsHold t where
  held c hc p hne hb := by
    obtain ⟨hin, hla⟩ := hl c hc
    rw [hp] at hne
    rw [hla] at hb
    exact hf p (h.held c hin p hne hb)
  nested hfg hisr p hne hb := by
    obtain ⟨hinF, hlaF⟩ := hl .fg hfg
    obtain ⟨hinI, hlaI⟩ := hl .isr hisr
    rw [hp] at hne
    have : bit s.isr.latch p = true := h.nested hinF hinI p hne (by rw [← hb]; exact congrArg (bit · p) hlaF.symm)
    rw [← this]
    exact congrArg (bit · p) hlaI

/-- What a write half in flight leaves in IFG: the latched flags but A_CLK's, since each of them is still set
(40_signal.md R104; 60_exceptions.md R211). -/
theorem writeHalf_ifg_bit (hl : LatchedFlagsHold s) {i : Instr} {f : MaskFn} {sig : Signal}
    (hm : .writeHalf .ifg f sig ∈ microSteps i) (hc : (s.ctx s.active).inflight = some .ifg) (n : Nat) (p : Pin) :
    bit (afterMicro s (.writeHalf .ifg f sig) n).ifg p =
      (bit (s.ctx s.active).latch p && !decide (p = s.params.wiring.pos .aClk)) := by
  obtain ⟨rfl, hf⟩ := interrupt_writes i hm (.inr (.inr rfl))
  obtain ⟨rfl, -⟩ := hf rfl
  obtain ⟨-, -, -, -, -, -, -, -, -, -, -, written, -⟩ := writeHalf_frame s .ifg .clear .aClk n
  have held := hl.held s.active hc p
  rw [written rfl, bit_ifgWritten]
  simp only [maskFn, bit_clearMask, bit_maskOf]
  cases hb : bit (s.ctx s.active).latch p <;> by_cases hp : p = s.params.wiring.pos .aClk <;> simp_all

/-- A context is the running one or the other one (60_exceptions.md R220). -/
theorem eq_or_other (c d : Context) : d = c ∨ d = c.other := by cases c <;> cases d <;> decide

/-- Where the other context is in flight, the handler runs and the foreground is that context (10_state.md R40;
60_exceptions.md R213). -/
theorem Sequenced.preempted (hs : Sequenced s) {r : Reg} (h : (s.ctx s.active.other).inflight = some r) :
    s.inIsr = true ∧ s.fg.inflight = some r := by
  cases hi : s.inIsr with
  | true => rw [active_isr hi] at h; exact ⟨rfl, h⟩
  | false =>
    rw [active_fg hi] at h
    have idle : (s.ctx Context.fg.other).inflight = none := hs.idle hi
    simp [idle] at h

/-- Both contexts in flight, said of each. -/
theorem both_inflight {r : Reg} (hfg : s.fg.inflight = some r) (hisr : s.isr.inflight = some r) (c : Context) :
    (s.ctx c).inflight = some r := by
  cases c with
  | fg => exact hfg
  | isr => exact hisr

section
variable {i : Instr} {m : Micro} (hm : m ∈ microSteps i) (n : Nat)
include hm

/-- A micro-step leaves the other context as it is (60_exceptions.md R220). -/
theorem afterMicro_other : (afterMicro s m n).ctx s.active.other = s.ctx s.active.other := (afterMicro_outside hm n).other

/-- Only the read half of IFG puts a latch in flight on it. -/
theorem afterMicro_ifg_latches (hne : m ≠ .readHalf .ifg) (c : Context)
    (hc : ((afterMicro s m n).ctx c).inflight = some .ifg) :
    (s.ctx c).inflight = some .ifg ∧ ((afterMicro s m n).ctx c).latch = (s.ctx c).latch := by
  rcases eq_or_other s.active c with rfl | rfl
  · obtain ⟨inflight, latch⟩ := afterMicro_latch (s := s) m n
    rw [inflight] at hc
    rw [latch]
    cases m with
    | readHalf r => exact absurd (congrArg _ (Option.some_inj.mp hc)) hne
    | writeHalf r f sig => cases hc
    | fullWrite r v => exact ⟨hc, rfl⟩
    | sample sig w => exact ⟨hc, rfl⟩
    | setGie b => exact ⟨hc, rfl⟩
  · rw [afterMicro_other hm] at hc ⊢
    exact ⟨hc, rfl⟩

end

/-- Latching the flags: the new latch is IFG itself, and the foreground's is within it. -/
theorem readHalf_latchedFlags (hs : Sequenced s) (hl : LatchedFlagsHold s) {i : Instr}
    (hm : .readHalf .ifg ∈ microSteps i) (n : Nat) : LatchedFlagsHold (afterMicro s (.readHalf .ifg) n) := by
  have outside := afterMicro_outside (s := s) hm n
  have latch : ((afterMicro s (.readHalf .ifg) n).ctx s.active).latch = s.ifg := (afterMicro_latch _ n).2
  obtain ⟨-, -, -, -, flags, -⟩ := readHalf_frame s .ifg n
  constructor
  · intro c hc p hne hb
    rw [outside.params] at hne
    rw [flags]
    rcases eq_or_other s.active c with rfl | rfl
    · rwa [latch] at hb
    · rw [outside.other] at hc hb
      exact hl.held _ hc p hne hb
  · intro hfg hisr p hne hb
    rw [outside.params] at hne
    have other := outside.other
    obtain ⟨hi, inflight⟩ := hs.preempted (by rw [← other]; exact both_inflight hfg hisr _)
    rw [active_isr hi] at latch other
    have outer : (afterMicro s (.readHalf .ifg) n).fg = s.fg := other
    have inner : (afterMicro s (.readHalf .ifg) n).isr.latch = s.ifg := latch
    rw [outer] at hb
    rw [inner]
    exact hl.held .fg inflight p hne hb

/-- Writing the flags back: what the preempted foreground's latch holds is in the handler's latch, which is written. -/
theorem writeHalf_latchedFlags (hs : Sequenced s) (hl : LatchedFlagsHold s) {i : Instr} {f : MaskFn} {sig : Signal}
    (hm : .writeHalf .ifg f sig ∈ microSteps i) (hc : (s.ctx s.active).inflight = some .ifg) (n : Nat) :
    LatchedFlagsHold (afterMicro s (.writeHalf .ifg f sig) n) := by
  have landed : ((afterMicro s (.writeHalf .ifg f sig) n).ctx s.active).inflight = none := (afterMicro_latch _ n).1
  have outside := afterMicro_outside (s := s) hm n
  constructor
  · intro c h p hne hb
    rw [outside.params] at hne
    rcases eq_or_other s.active c with rfl | rfl
    · simp [landed] at h
    · rw [outside.other] at h hb
      obtain ⟨hi, hfg⟩ := hs.preempted h
      rw [active_isr hi] at hc hb
      have inner : bit s.isr.latch p = true := hl.nested hfg hc p hne hb
      rw [writeHalf_ifg_bit hl hm (by rw [active_isr hi]; exact hc), active_isr hi]
      simp [State.ctx, inner, hne]
  · intro hfg hisr
    rw [both_inflight hfg hisr s.active] at landed
    cases landed

/-- A micro-step of a sequenced context keeps the latched flags. -/
theorem afterMicro_latchedFlags (hs : Sequenced s) (hl : LatchedFlagsHold s) {i : Instr} {m : Micro}
    (hm : m ∈ microSteps i) (hc : (s.ctx s.active).inflight = m.awaits) (n : Nat) :
    LatchedFlagsHold (afterMicro s m n) := by
  by_cases hread : m = .readHalf .ifg
  · subst hread
    exact readHalf_latchedFlags hs hl hm n
  by_cases hwrite : ∃ f sig, m = .writeHalf .ifg f sig
  · obtain ⟨f, sig, rfl⟩ := hwrite
    exact writeHalf_latchedFlags hs hl hm hc n
  · exact hl.of_latches (afterMicro_outside hm n).params
      (afterMicro_keeps_flags s hm n fun f sig e => hwrite ⟨f, sig, e⟩) (afterMicro_ifg_latches hm n hread)

/-- The micro-step a sequenced context runs is the one its latch in flight awaits (10_state.md R40). -/
theorem RunsMicro.inflight {t : State} {i : Instr} {m : Micro} (hs : Sequenced s) (h : RunsMicro i m s t) :
    (s.ctx s.active).inflight = m.awaits := by
  obtain ⟨-, -, -, w, fetch, decoded⟩ := move_run_iff.mp h.move
  exact hs.inflight fetch decoded h.here

/-- A step that runs a micro-step keeps the latched flags: taking the turn changes no latch and no flag. -/
theorem RunsMicro.latchedFlags {t : State} {i : Instr} {m : Micro} (hs : Sequenced s) (hl : LatchedFlagsHold s)
    (h : RunsMicro i m s t) : LatchedFlagsHold t := by
  rw [h.eq]
  exact afterMicro_latchedFlags (s := s.afterTurn) ⟨hs.fg, hs.isr, hs.idle⟩ ⟨hl.held, hl.nested⟩ h.mem
    (by simpa using h.inflight hs) _

/-- A write half of IFG sets no flag: what it writes is held (70_reset_and_hazards.md R260). -/
theorem RunsMicro.ifg_sets_none {t : State} {i : Instr} {f : MaskFn} {sig : Signal} (hs : Sequenced s)
    (hl : LatchedFlagsHold s) (h : RunsMicro i (.writeHalf .ifg f sig) s t) (p : Pin) (hp : bit t.ifg p = true) :
    bit s.ifg p = true := by
  have inflight : (s.ctx s.active).inflight = some .ifg := h.inflight hs
  rw [h.eq, writeHalf_ifg_bit (s := s.afterTurn) ⟨hl.held, hl.nested⟩ h.mem (by simpa using inflight)] at hp
  simp only [afterTurn_active, afterTurn_ctx, Bool.and_eq_true, Bool.not_eq_true', decide_eq_false_iff_not] at hp
  exact hl.held s.active inflight p hp.2 hp.1

end

/-- Settles O51: every step keeps what the latches hold, and a write half of IFG writes latched flags only. -/
theorem noUpdateSetsAFlagAgain : Obligations.NoUpdateSetsAFlagAgain := by
  intro s t hs hl h
  refine ⟨?_, fun i f sig move here => (runsMicro_of_move h move here).ifg_sets_none hs hl⟩
  rcases step_micro_or_none h with ⟨i, m, run⟩ | none_run
  · exact run.latchedFlags hs hl
  · exact hl.of_latches none_run.params none_run.flags fun c => none_run.latches c .ifg

/-! ### What a step can change (10_state.md R31, R37, R43, R44) -/

section
variable {s t : State}

/-- Only a step of the outside changes a drive, and it sets the one pin it names within what the remote side may do
(10_state.md R33). -/
theorem StepKind.ext (h : StepKind s t) :
    t.ext = s.ext ∨ ∃ p e, s.turn = .drive p e ∧ (onPin s.params.extCap p).allows e = true ∧ t.ext = s.ext.set p e := by
  cases h with
  | entry _ _ eq => subst eq; exact .inl rfl
  | drive p e turn allowed eq => subst eq; exact .inr ⟨p, e, turn, allowed, rfl⟩
  | redraw _ _ _ eq => subst eq; exact .inl rfl
  | micro i _ m _ _ _ here eq =>
    subst eq
    exact .inl (afterMicro_outside (s := s.afterTurn) (List.mem_of_getElem? here) _).ext
  | refuse _ _ _ _ _ eq => subst eq; exact .inl rfl
  | ret _ _ _ eq => subst eq; exact .inl rfl
  | idle _ _ _ eq => subst eq; exact .inl rfl

/-- A step that runs a micro-step marks Race where the other context is in flight on what it writes (10_state.md R44). -/
theorem RunsMicro.race {i : Instr} {m : Micro} (h : RunsMicro i m s t) (r : Reg) :
    t.race.has r = (s.race.has r || decide (m.writes = some r ∧ (s.ctx s.active.other).inflight = some r)) := by
  rw [h.eq, afterMicro_race]
  simp

end

/-- Settles O48: a changed drive is the one pin of an outside step, and that drive is allowed. -/
theorem stepKeepsDrivesWithinCap : Obligations.StepKeepsDrivesWithinCap := by
  intro s t h
  obtain ⟨params, -⟩ := (step_kind h).2.launch_inputs
  rcases (step_kind h).2.ext with same | ⟨p, e, turn, allowed, set⟩
  · exact ⟨fun hs q => by rw [params, same]; exact hs q, fun hne => absurd same hne⟩
  · refine ⟨fun hs q => ?_, fun _ => ⟨p, e, turn, set⟩⟩
    rw [params, set, onPin_set]
    split
    next hq => rw [hq]; exact allowed
    next => exact hs q

/-- Settles O56: while the handler is active the foreground is the other context of every micro-step. -/
theorem handlerLeavesTheForegroundInPlace : Obligations.HandlerLeavesTheForegroundInPlace := by
  intro s t hi h
  rcases step_micro_or_none h with ⟨i, m, run⟩ | none_run
  · have other := afterMicro_other (s := s.afterTurn) run.mem (microSteps i).length
    rw [active_isr (s := s.afterTurn) hi, ← run.eq] at other
    exact other
  · exact none_run.fg

/-- Settles O53: a new mark needs the other context in flight, which is the foreground under a handler. -/
theorem raceNeedsAPreemptedUpdate : Obligations.RaceNeedsAPreemptedUpdate := by
  intro s t r hs h before after
  rcases step_micro_or_none h with ⟨i, m, run⟩ | none_run
  · rw [run.race, before, Bool.false_or, decide_eq_true_eq] at after
    exact hs.preempted after.2
  · rw [none_run.race, before] at after
    cases after

/-- Settles O54: a micro-step and every other kind of step keep each kind of mark; a refusal leaves no next state. -/
theorem marksAreSticky : Obligations.MarksAreSticky := by
  intro s t h
  have refused (hne : s.refused ≠ none) : t.refused = s.refused := absurd (step_kind h).1 hne
  rcases step_micro_or_none h with ⟨i, m, run⟩ | none_run
  · refine ⟨fun r marked => by rw [run.race, marked, Bool.true_or], ?_, ?_, refused⟩
    · rw [run.eq]; exact fun p => afterMicro_keeps_contention s.afterTurn m _
    · rw [run.eq]; exact fun p => afterMicro_keeps_flagLoss s.afterTurn m _
  · exact ⟨fun r marked => by rw [none_run.race, marked], none_run.contention,
      fun p marked => by rw [none_run.flagLoss, marked], refused⟩

/-- Settles O52: of the micro-steps only a write half of IFG clears a flag, and two commands have one. -/
theorem flagsStayUntilAcknowledged : Obligations.FlagsStayUntilAcknowledged := by
  intro s t p h before after
  have cleared : ¬ NoFlagCleared s t := fun kept => by simp [kept p before] at after
  rcases step_micro_or_none h with ⟨i, m, run⟩ | none_run
  · by_cases hw : ∃ f sig, m = .writeHalf .ifg f sig
    · obtain ⟨f, sig, rfl⟩ := hw
      obtain ⟨-, commands⟩ := interrupt_writes i run.mem (.inr (.inr rfl))
      rcases (commands rfl).2 with rfl | rfl
      · exact .inl run.move
      · exact .inr run.move
    · rw [run.eq] at cleared
      exact absurd (afterMicro_keeps_flags s.afterTurn run.mem _ fun f sig e => hw ⟨f, sig, e⟩) cleared
  · exact absurd none_run.flags cleared

/-- Settles O5: the move of the running context's turn is the decoded command's. -/
theorem stepRunsTheDecodedCommand : Obligations.StepRunsTheDecodedCommand :=
  fun _ w _ hr ht hf hd => step_of_move_run (move_run_iff.mpr ⟨hr, ht, rfl, w, hf, hd⟩)

/-- Settles O43: the context's turn raises the decoder's reason, and a raised refusal halts every move. -/
theorem reservedWordStopsEveryAgent : Obligations.ReservedWordStopsEveryAgent := by
  refine ⟨fun s w r hr ht hf hd => ?_, fun s r hr => ⟨?_, ?_⟩, rfl⟩
  · have hm : s.move = .settle (s.afterTurn.raise r) := by
      rw [move_context hr ht]
      simp [State.contextMove, hf, hd]
    simp only [step, hm]
    rfl
  · simp [step, State.move, hr]
  · simp [State.final, hr]

/-! ### Registers, lines and the outside (10_state.md R24, R25, R27, R33, R48) -/

/-- Settles O32: the two effects of a one, read off the written flags. -/
theorem writingTheFlagRegister : Obligations.WritingTheFlagRegister := by
  intro s v p
  show bit (ifgWritten s.params.ifgWriteOne s.ifg v) p = _
  rw [bit_ifgWritten]
  cases bit v p <;> cases s.params.ifgWriteOne <;> simp

/-- Settles O33: the changed bits are those of the exclusive or of the old and the new select. -/
theorem writingTheEdgeSelect : Obligations.WritingTheEdgeSelect := by
  refine fun s v drawn ds => ⟨by simp, fun p => ?_⟩
  show bit (ifgAfterIes s.ifg s.ies v drawn) p = _
  rw [bit_ifgAfterIes]
  cases bit s.ies p <;> cases bit v p <;> simp

/-- Settles O34: an address is looked up to its one register, or to none. -/
theorem busAccessesAreRegisterAccesses : Obligations.BusAccessesAreRegisterAccesses := by
  intro s hd
  refine ⟨fun r v => ?_, rfl, fun v => rfl, fun x v hx => ?_⟩
  · simp [State.busRead, State.busWrite, regAt_addr hd]
  · simp [State.busRead, State.busWrite, regAt_none hx, State.raise]

/-- Settles O35: the outside's step is the recomputation of the lines under the new drive. -/
theorem outsideStepDrivesOnePin : Obligations.OutsideStepDrivesOnePin := by
  intro s p e hr hn ha
  refine ⟨_, step_drive hr (turn_eq hn ha), rfl, recompute_settled _, ?_, fun q => contentionMarks_get .., rfl, rfl, rfl, rfl,
    rfl, rfl, rfl, rfl, rfl, rfl, hr⟩
  exact recompute_flags { s.afterTurn with ext := s.ext.set p e }

/-- Settles O36: the re-draw's step is a recomputation of the lines, with the drawn bit where no level is determined. -/
theorem undeterminedLineTakesAnyLevel : Obligations.UndeterminedLineTakesAnyLevel := by
  intro s p drawn hr hl
  have turn : State.turn { s with turns := [.redraw p], draws := [drawn] } = .redraw p :=
    turn_eq rfl (by show (s.levelAt p).isNone = true; rw [hl]; rfl)
  refine ⟨_, step_redraw hr turn, ?_, recompute_settled _, ?_, fun q => contentionMarks_get .., rfl, rfl, rfl, rfl,
    rfl, rfl, rfl, rfl, rfl, rfl, rfl, hr⟩
  · have undetermined : State.levelAt { s with turns := [.redraw p], draws := [drawn] } p = none := hl
    rw [State.redrawLines, bit_recompute_lvl, afterTurn_levelAt, undetermined]
    rfl
  · exact recompute_flags (State.afterTurn { s with turns := [.redraw p], draws := [drawn] })

/-- Settles O45: every field is the draw's or clear by definition, and the lines are those of R32. -/
theorem resetValues : Obligations.ResetValues := by
  intro params isr regs ext levels latch
  refine ⟨rfl, rfl, rfl, rfl, rfl, rfl, rfl, rfl, rfl, fun r => ?_, fun p => onPin_replicate .., fun p => ?_, fun r hr => ?_,
    rfl, resetWith_settled⟩
  · cases r <;> rfl
  · simp [State.resetWith]
  · cases r with
    | inp => exact absurd rfl hr
    | dir => rfl
    | out => rfl
    | ie => rfl
    | ies => rfl
    | ifg => rfl

/-! ### The two halves of a masked update (40_signal.md R104) -/

/-- The running context after the read half of a register: its latch set and in flight, one micro-step on (40_signal.md R104). -/
def State.latched (s : State) (r : Reg) : State :=
  s.setCtx s.active { s.ctx s.active with latch := s.readReg r, inflight := some r, j := (s.ctx s.active).j + 1 }

/-- A read half is never a command's last micro-step, so the cursor stays in the command. -/
theorem exec_readHalf {i : Instr} {s : State} {r : Reg} (hm : (microSteps i)[(s.ctx s.active).j]? = some (.readHalf r)) :
    exec i s = .next (s.latched r) := by
  have inside : (s.ctx s.active).j + 1 < (microSteps i).length := by
    by_contra hlast
    cases last_micro_latches hm hlast
  rw [exec_micro hm]
  simp [State.latched, State.doMicro, State.doReadHalf, State.advance, ContextState.advance, inside]

/-- Settles O10: the read half's state is the latched one. -/
theorem readHalfLatchesItsRegister : Obligations.ReadHalfLatchesItsRegister :=
  fun _ _ _ hm => exec_readHalf hm

/-- The FlagLoss marks after a write half (10_state.md R46). -/
theorem writeHalf_flagLoss (s : State) (r : Reg) (f : MaskFn) (sig : Signal) (n : Nat) (p : Pin) :
    onPin (afterMicro s (.writeHalf r f sig) n).flagLoss p =
      (onPin s.flagLoss p || decide (r = .ifg ∧ bit (s.writeHalfValue s.active f sig) p = false ∧
        bit (maskOf s.params sig) p = false ∧ bit s.ifg p = true)) := by
  by_cases hr : r = .ifg
  · simp [State.doMicro, State.doWriteHalf, State.land, State.advance, hr, Bool.and_assoc]
  · simp [State.doMicro, State.doWriteHalf, State.land, State.advance, hr]

/-- A masked update of a byte sets or clears the signal's bit alone (40_signal.md R101 to R103). -/
theorem bit_maskFn (params : Params) (f : MaskFn) (v : Byte) (sig : Signal) (p : Pin) :
    bit (maskFn f v (maskOf params sig)) p =
      if p = params.wiring.pos sig then decide (f = .apply) else bit v p := by
  by_cases hp : p = params.wiring.pos sig <;> cases f <;> simp [maskFn, hp]

/-- Clearing bits of IFG clears those alone, whatever writing a one does (10_state.md R25, 41_buspins.md R133). -/
theorem ifgWritten_clearMask (w : WriteOne) (v mask : Byte) : ifgWritten w v (clearMask v mask) = clearMask v mask := by
  apply byte_ext
  intro p
  rw [bit_ifgWritten]
  cases h : bit v p <;> simp [h]

/-- What a write half writes is read in its register; IFG by its own rule (10_state.md R21 to R25). -/
theorem writeHalf_readReg (s : State) {r : Reg} (f : MaskFn) (sig : Signal) (n : Nat) (hinp : r ≠ .inp) (hifg : r ≠ .ifg) :
    (afterMicro s (.writeHalf r f sig) n).readReg r = s.writeHalfValue s.active f sig := by
  obtain ⟨dir, out, ie, ies, -⟩ := writeHalf_frame s r f sig n
  cases r with
  | dir => exact dir
  | out => exact out
  | inp => exact absurd rfl hinp
  | ie => exact ie
  | ies => exact ies
  | ifg => exact absurd rfl hifg

/-- A write half leaves every register but its own and IFG (10_state.md R21 to R24). -/
theorem writeHalf_kept (s : State) {r q : Reg} (f : MaskFn) (sig : Signal) (n : Nat) (hq : q ≠ r) (hinp : q ≠ .inp)
    (hifg : q ≠ .ifg) : (afterMicro s (.writeHalf r f sig) n).readReg q = s.readReg q := by
  obtain ⟨dir, out, ie, ies, -⟩ := writeHalf_frame s r f sig n
  cases q with
  | dir => exact dir.trans (if_neg hq.symm)
  | out => exact out.trans (if_neg hq.symm)
  | inp => exact absurd rfl hinp
  | ie => exact ie.trans (if_neg hq.symm)
  | ies => exact ies.trans (if_neg hq.symm)
  | ifg => exact absurd rfl hifg

/-- A write half of DIR or OUT settles the lines (10_state.md R32). -/
theorem writeHalf_settles (s : State) {r : Reg} (f : MaskFn) (sig : Signal) (n : Nat) (hr : r = .dir ∨ r = .out) :
    LinesSettled (afterMicro s (.writeHalf r f sig) n) := by
  simp only [State.advance, setCtx_settled, State.doMicro, State.doWriteHalf, State.land]
  exact writeReg_settles _ _ hr

/-- Settles O11: each clause is the write half's own rule; the last one is of a latch that still holds its register. -/
theorem writeHalfPutsTheMaskedLatchBack : Obligations.WriteHalfPutsTheMaskedLatchBack := by
  intro i s r f sig hm
  have mem := List.mem_of_getElem? hm
  have hinp : r ≠ .inp := fun e => (micro_writes i mem).1 f sig (e ▸ rfl)
  have written := fun hr => writeHalf_readReg s f sig (microSteps i).length hinp hr
  obtain ⟨-, -, -, -, -, -, -, -, -, lines, -, flags, -⟩ := writeHalf_frame s r f sig (microSteps i).length
  refine ⟨_, exec_micro hm, written, flags, fun q => ?_, writeHalf_flagLoss s r f sig _, fun hr p => ?_,
    fun hd ho => (lines hd ho).contention, (afterMicro_latch _ _).1, fun fresh p => ?_⟩
  · rw [afterMicro_race]
    by_cases hq : q = r
    · simp [Micro.writes, hq]
    · simp [Micro.writes, hq, Ne.symm hq]
  · rw [writeHalf_contention]
    simp [hr]
  · by_cases hr : r = .ifg
    · subst hr
      obtain ⟨-, hf⟩ := interrupt_writes i mem (.inr (.inr rfl))
      obtain ⟨rfl, -⟩ := hf rfl
      show bit (afterMicro s (.writeHalf .ifg .clear sig) _).ifg p = _
      have cleared : ifgWritten s.params.ifgWriteOne s.ifg (maskFn .clear s.ifg (maskOf s.params sig)) =
          maskFn .clear s.ifg (maskOf s.params sig) := ifgWritten_clearMask _ _ _
      rw [flags rfl, fresh, show s.readReg .ifg = s.ifg from rfl, cleared, bit_maskFn]
    · rw [written hr, State.writeHalfValue, fresh, bit_maskFn]

/-- Settles O57: each clause is one of the write half's frame; the levels are those of its register write. -/
theorem writeHalfLeavesAllElse : Obligations.WriteHalfLeavesAllElse := by
  intro i s r f sig hm
  have mem := List.mem_of_getElem? hm
  obtain ⟨-, -, -, ies, gie, res, -, -, edges, lines, flagsIe, -, flagsIes⟩ :=
    writeHalf_frame s r f sig (microSteps i).length
  refine ⟨_, exec_micro hm, fun q hq hifg hinp => writeHalf_kept s f sig _ hq hinp hifg,
    fun hr => ⟨edges hr, writeHalf_settles s f sig _ hr⟩, flagsIe, fun hr p => ?_, lines, gie, res,
    (afterMicro_latch _ _).2, afterMicro_outside mem _⟩
  rw [flagsIes hr, bit_ifgAfterIes, ies, if_pos hr]
  cases bit s.ies p <;> cases bit (maskFn f (s.ctx s.active).latch (maskOf s.params sig)) p <;> simp

/-! ### Every micro-step, and the commands of one (40_signal.md R100, R106) -/

/-- Settles O7: exec runs the micro-step at the cursor and moves the cursor on. -/
theorem everyMicroStepCompletes : Obligations.EveryMicroStepCompletes := by
  intro i s hj
  have hm := List.getElem?_eq_getElem hj
  obtain ⟨k, j⟩ := afterMicro_cursor s (microSteps i)[(s.ctx s.active).j] (microSteps i).length
  refine ⟨_, exec_micro hm, ?_⟩
  split
  next inside => simpa [ContextState.advance, inside] using And.intro k j
  next last => exact ⟨by simpa [ContextState.advance, last] using k, by simpa [ContextState.advance, last] using j⟩

/-- A sample reads the line's level, or its negation (40_signal.md R106, R114, R115). -/
theorem afterMicro_sample (s : State) (sig : Signal) (want : Bool) :
    afterMicro s (.sample sig want) 1 = s.setCtx s.active { s.ctx s.active with
      res := some (bit s.lvl (s.params.wiring.pos sig) == want), k := (s.ctx s.active).k + 1, j := 0 } := by
  have level : s.readIn sig = bit s.lvl (s.params.wiring.pos sig) := and_maskOf_ne_zero s.lvl s.params sig
  simp [State.doMicro, State.doSample, State.advance, ContextState.advance, level]

/-- Settles O17: both reads are one sample, with the wanted level high and low. -/
theorem readsReturnTheLineLevel : Obligations.ReadsReturnTheLineLevel := by
  intro sig s start
  have start : (s.ctx s.active).j = 0 := start
  have high : (microSteps (.prim .readHigh sig)) = [.sample sig true] := microSteps_prim .readHigh sig
  have low : (microSteps (.prim .readLow sig)) = [.sample sig false] := microSteps_prim .readLow sig
  constructor
  · rw [exec_micro (m := .sample sig true) (by rw [high, start]; rfl), high, List.length_singleton, afterMicro_sample]
    simp
  · rw [exec_micro (m := .sample sig false) (by rw [low, start]; rfl), low, List.length_singleton, afterMicro_sample]
    simp

/-! ### An uninterrupted masked update (40_signal.md R104, R116)

With no step of another agent between its halves, a masked update is one masked write of the register as it is. -/

/-- A step of the running context leaves that context running. -/
theorem SameOutside.active {s t : State} (h : SameOutside s t) : t.active = s.active := by
  simp [State.active, h.inIsr]

/-- What is outside stays outside through two steps of a context. -/
theorem SameOutside.trans {s t u : State} (h : SameOutside s t) (h' : SameOutside t u) : SameOutside s u where
  params := h'.params.trans h.params
  fgProgram := h'.fgProgram.trans h.fgProgram
  isrProgram := h'.isrProgram.trans h.isrProgram
  ext := h'.ext.trans h.ext
  inIsr := h'.inIsr.trans h.inIsr
  refused := h'.refused.trans h.refused
  turns := h'.turns.trans h.turns
  turnCount := h'.turnCount.trans h.turnCount
  other := by rw [← h.other, ← h.active, h'.other]

/-- The control fields stay through two steps of a context. -/
theorem SameControl.trans {s t u : State} (ho : SameOutside s t) (h : SameControl s t) (h' : SameControl t u) :
    SameControl s u where
  gie := h'.gie.trans h.gie
  res := by rw [← h.res, ← ho.active, h'.res]
  flagLoss := h'.flagLoss.trans h.flagLoss

/-- The value of a masked update of a register that is not written in between (40_signal.md R104). -/
def State.masked (s : State) (r : Reg) (f : MaskFn) (sig : Signal) : Byte := maskFn f (s.readReg r) (maskOf s.params sig)

/-- What a masked update does, nothing in between: from `s`, before its read half, to `t`, after its write half. -/
structure MaskedUpdate (r : Reg) (f : MaskFn) (sig : Signal) (s t : State) : Prop where
  outside : SameOutside s t
  control : SameControl s t
  landed : (t.ctx s.active).inflight = none
  race : SameRaceBut r s t
  kept : ∀ q, q ≠ r → q ≠ .inp → q ≠ .ifg → t.readReg q = s.readReg q
  written : r ≠ .inp → r ≠ .ifg → t.readReg r = s.masked r f sig
  settled : LinesSettled s → LinesSettled t
  moved : r = .dir ∨ r = .out → FlagsFromEdges s t ∧ LinesSettled t
  still : r ≠ .dir → r ≠ .out → SameLines s t
  flagsIe : r = .ie → t.ifg = s.ifg
  flagsIes : r = .ies → t.ifg = ifgAfterIes s.ifg s.ies (s.masked .ies f sig) s.nextDraw
  flagsIfg : r = .ifg → t.ifg = ifgWritten s.params.ifgWriteOne s.ifg (s.masked .ifg f sig)

/-- A write half of the flags as they are loses none (10_state.md R46). -/
theorem writeHalf_loses_no_flag (s : State) (r : Reg) (f : MaskFn) (sig : Signal) (n : Nat)
    (fresh : (s.ctx s.active).latch = s.readReg r) : (afterMicro s (.writeHalf r f sig) n).flagLoss = s.flagLoss := by
  apply onPin_ext
  intro p
  have not_lost : ¬ (r = .ifg ∧ bit (maskFn f (s.readReg r) (maskOf s.params sig)) p = false ∧
      bit (maskOf s.params sig) p = false ∧ bit s.ifg p = true) := by
    rintro ⟨rfl, lost, off, set⟩
    rw [bit_maskFn_off f _ _ p off] at lost
    exact absurd (set.symm.trans lost) (by decide)
  rw [writeHalf_flagLoss, State.writeHalfValue, fresh, decide_eq_false not_lost, Bool.or_false]

section
variable (s : State) (r : Reg) (f : MaskFn) (sig : Signal) (n : Nat)

/-- A context holds no draw (00_scope.md R12). -/
@[simp] theorem setCtx_nextDraw (c : Context) (x : ContextState) : (s.setCtx c x).nextDraw = s.nextDraw := by
  cases c <;> rfl

/-- The write half of a latch just read is a masked update. -/
theorem maskedUpdate_of_latched {i : Instr} (hm : .writeHalf r f sig ∈ microSteps i) :
    MaskedUpdate r f sig s (afterMicro (s.latched r) (.writeHalf r f sig) n) := by
  have before : SameOutside s (s.latched r) := by constructor <;> simp [State.latched]
  have after := afterMicro_outside (s := s.latched r) hm n
  have latch : ((s.latched r).ctx (s.latched r).active).latch = s.readReg r := by simp [State.latched]
  have landed := (afterMicro_latch (s := s.latched r) (.writeHalf r f sig) n).1
  obtain ⟨-, -, -, -, gie, res, -, race, edges, lines, flagsIe, flagsIfg, flagsIes⟩ :=
    writeHalf_frame (s.latched r) r f sig n
  rw [latch, before.params] at flagsIfg flagsIes
  rw [before.active] at res landed
  exact {
    outside := before.trans after
    control := ⟨by simpa [State.latched] using gie, by simpa [State.latched] using res, by
      rw [writeHalf_loses_no_flag _ r f sig n (by rw [latch]; simp [State.latched])]
      simp [State.latched]⟩
    landed := landed
    race := fun q hq => by simpa [State.latched] using race q hq
    kept := fun q hq hinp hifg => by
      rw [writeHalf_kept _ f sig n hq hinp hifg]
      simp [State.latched]
    written := fun hinp hifg => by
      rw [writeHalf_readReg _ f sig n hinp hifg, State.writeHalfValue, latch, before.params, State.masked]
    settled := fun h => afterMicro_settled _ _ _ (by simpa [State.latched] using h)
    moved := fun hr => ⟨by simpa [FlagsFromEdges, State.latched] using edges hr, writeHalf_settles _ f sig n hr⟩
    still := fun hd ho => ⟨by simpa [State.latched] using (lines hd ho).lvl, by
      simpa [State.latched] using (lines hd ho).contention⟩
    flagsIe := fun hr => by simpa [State.latched] using flagsIe hr
    flagsIes := fun hr => by subst hr; simpa [State.latched, State.masked] using flagsIes rfl
    flagsIfg := fun hr => by subst hr; simpa [State.latched, State.masked] using flagsIfg rfl }

end

/-- Where the running context is in its program: the command's index and the micro-step's (10_state.md R39). -/
def State.cursor (s : State) : Nat × Nat := ((s.ctx s.active).k, (s.ctx s.active).j)

/-- A cursor at the start of the next place is past the command. -/
theorem commandDone_of_cursor {s t : State} {k j : Nat} (outside : SameOutside s t) (hs : s.cursor = (k, j))
    (ht : t.cursor = (k + 1, 0)) : CommandDone s t := by
  simp only [State.cursor, Prod.mk.injEq, outside.active] at hs ht
  exact ⟨by rw [ht.1, hs.1], ht.2⟩

/-- The micro-step at the cursor. -/
theorem micro_at_cursor {ms : List Micro} {s : State} {m : Micro} {k j : Nat} (hs : s.cursor = (k, j))
    (hm : ms[j]? = some m) : ms[(s.ctx s.active).j]? = some m := by
  rw [show (s.ctx s.active).j = j from congrArg Prod.snd hs, hm]

/-- A micro-step moves the cursor to the next one, or past the command after its last (10_state.md R39, 40_signal.md R100). -/
theorem cursor_afterMicro {i : Instr} {s : State} {m : Micro} {k j : Nat} (hs : s.cursor = (k, j)) (hm : m ∈ microSteps i) :
    (afterMicro s m (microSteps i).length).cursor = if j + 1 < (microSteps i).length then (k, j + 1) else (k + 1, 0) := by
  obtain ⟨hk, hj⟩ := afterMicro_cursor s m (microSteps i).length
  simp only [State.cursor, Prod.mk.injEq] at hs
  rw [State.cursor, (afterMicro_outside hm _).active, hk, hj]
  simp only [ContextState.advance, hs]
  split <;> rfl

/-- Both halves of a masked update run to their end, the cursor two micro-steps on (40_signal.md R100, R104). -/
theorem exec_rmw {i : Instr} {s : State} {k j : Nat} {r : Reg} {f : MaskFn} {sig : Signal} (hs : s.cursor = (k, j))
    (hread : (microSteps i)[j]? = some (.readHalf r)) (hwrite : (microSteps i)[j + 1]? = some (.writeHalf r f sig)) :
    ∃ t, exec i s = .next (s.latched r) ∧ exec i (s.latched r) = .next t ∧ MaskedUpdate r f sig s t ∧
      t.cursor = if j + 2 < (microSteps i).length then (k, j + 2) else (k + 1, 0) := by
  have latched : (s.latched r).cursor = (k, j + 1) := by
    simp only [State.cursor, Prod.mk.injEq] at hs
    simp [State.cursor, State.latched, hs]
  have mem := List.mem_of_getElem? hwrite
  exact ⟨_, exec_readHalf (micro_at_cursor hs hread), exec_micro (micro_at_cursor latched hwrite),
    maskedUpdate_of_latched s r f sig _ mem, cursor_afterMicro latched mem⟩

/-- An uninterrupted command whose next micro-steps are a masked update runs on after it. -/
theorem execTimes_rmw {i : Instr} {s : State} {k j : Nat} {r : Reg} {f : MaskFn} {sig : Signal} (n : Nat)
    (hs : s.cursor = (k, j)) (hread : (microSteps i)[j]? = some (.readHalf r))
    (hwrite : (microSteps i)[j + 1]? = some (.writeHalf r f sig)) :
    ∃ t, execTimes (n + 2) i s = execTimes n i t ∧ MaskedUpdate r f sig s t ∧
      t.cursor = if j + 2 < (microSteps i).length then (k, j + 2) else (k + 1, 0) := by
  obtain ⟨t, first, second, update, cursor⟩ := exec_rmw hs hread hwrite
  exact ⟨t, by simp only [execTimes, first, second], update, cursor⟩

/-- A masked update of DIR or OUT, a whole command, meets the frame of the bus commands (40_signal.md R116). -/
theorem MaskedUpdate.busFrame {r : Reg} {f : MaskFn} {sig : Signal} {s t : State} (h : MaskedUpdate r f sig s t)
    (hr : r = .dir ∨ r = .out) (done : CommandDone s t) : BusCommandFrame s t where
  outside := h.outside
  control := h.control
  ie := h.kept .ie (by rintro rfl; simp at hr) nofun nofun
  ies := h.kept .ies (by rintro rfl; simp at hr) nofun nofun
  flags := (h.moved hr).1.kept
  lines := (h.moved hr).2
  landed := h.landed
  race q hd ho := h.race q (by rcases hr with rfl | rfl <;> assumption)
  done := done

/-- A command that is one masked update, from its start (40_signal.md R110 to R113). -/
theorem exec_rmw_command {i : Instr} {s : State} {r : Reg} {f : MaskFn} {sig : Signal} (hi : microSteps i = rmw r f sig)
    (start : AtStart s) :
    ∃ t₁ t, exec i s = .next t₁ ∧ exec i t₁ = .next t ∧ MaskedUpdate r f sig s t ∧ CommandDone s t := by
  have cursor : s.cursor = ((s.ctx s.active).k, 0) := congrArg _ start
  obtain ⟨t, first, second, update, after⟩ :=
    exec_rmw (i := i) (r := r) (f := f) (sig := sig) cursor (by rw [hi]; rfl) (by rw [hi]; rfl)
  rw [hi] at after
  exact ⟨_, t, first, second, update, commandDone_of_cursor update.outside cursor after⟩

/-- A command that is one masked update of DIR or OUT leaves the other one of the two (40_signal.md R110 to R113, R116). -/
theorem exec_bus_rmw {i : Instr} {s : State} {r q : Reg} {f : MaskFn} {sig : Signal} (hi : microSteps i = rmw r f sig)
    (hr : (r = .dir ∧ q = .out) ∨ (r = .out ∧ q = .dir)) (start : AtStart s) :
    ∃ t₁ t, exec i s = .next t₁ ∧ exec i t₁ = .next t ∧ t.readReg r = s.masked r f sig ∧ t.readReg q = s.readReg q ∧
      FlagsFromEdges s t ∧ BusCommandFrame s t := by
  obtain ⟨t₁, t, first, second, h, done⟩ := exec_rmw_command hi start
  have bus : r = .dir ∨ r = .out := hr.imp And.left And.left
  refine ⟨t₁, t, first, second, h.written ?_ ?_, h.kept q ?_ ?_ ?_, (h.moved bus).1, h.busFrame bus done⟩ <;>
    rcases hr with ⟨rfl, rfl⟩ | ⟨rfl, rfl⟩ <;> decide

/-- Settles O13: `drive_high` is one masked update of OUT. -/
theorem driveHighSetsTheOutputBit : Obligations.DriveHighSetsTheOutputBit :=
  fun sig _ start => exec_bus_rmw (microSteps_prim .driveHigh sig) (.inr ⟨rfl, rfl⟩) start

/-- Settles O14: `drive_low` is one masked update of OUT. -/
theorem driveLowClearsTheOutputBit : Obligations.DriveLowClearsTheOutputBit :=
  fun sig _ start => exec_bus_rmw (microSteps_prim .driveLow sig) (.inr ⟨rfl, rfl⟩) start

/-- Settles O15: `release` is one masked update of DIR. -/
theorem releaseClearsTheDirectionBit : Obligations.ReleaseClearsTheDirectionBit :=
  fun sig _ start => exec_bus_rmw (microSteps_prim .release sig) (.inl ⟨rfl, rfl⟩) start

/-- Settles O16: `configure_output` is one masked update of DIR. -/
theorem configureOutputSetsTheDirectionBit : Obligations.ConfigureOutputSetsTheDirectionBit :=
  fun sig _ start => exec_bus_rmw (microSteps_prim .configureOutput sig) (.inl ⟨rfl, rfl⟩) start

/-- Settles O21: the command is one masked update of IFG, which clears its bit for either effect of a one. -/
theorem acknowledgeClearsTheClockFlag : Obligations.AcknowledgeClearsTheClockFlag := by
  intro s start
  obtain ⟨t₁, t, first, second, h, done⟩ := exec_rmw_command (i := .acknowledgeClockInterrupt) rfl start
  have flags : t.ifg = s.ifg &&& ~~~maskOf s.params .aClk := (h.flagsIfg rfl).trans (ifgWritten_clearMask ..)
  exact ⟨t₁, t, first, second, flags, h.kept .dir nofun nofun nofun, h.kept .out nofun nofun nofun,
    h.kept .ie nofun nofun nofun, h.kept .ies nofun nofun nofun, h.still nofun nofun, h.outside, h.control, h.race,
    h.landed, done⟩

/-! ### `reset_to_idle` (40_signal.md R105; 41_buspins.md R130, R139) -/

/-- What the full write of DIR that releases every pin does, from `s` to `t`. -/
structure AllReleased (s t : State) : Prop where
  outside : SameOutside s t
  control : SameControl s t
  dir : t.dir = 0#8
  out : t.out = s.out
  ie : t.ie = s.ie
  ies : t.ies = s.ies
  race : ∀ q, t.race.has q = (s.race.has q || decide (q = .dir ∧ (s.ctx s.active.other).inflight = some .dir))
  flags : FlagsFromEdges s t
  settled : LinesSettled t
  contention : t.contention = s.contention

/-- No released pin is opposed, so the write marks no Contention (10_state.md R32, R45). -/
theorem contentionMarks_released (before : Vector Bool 8) (out : Byte) (ext : Vector ExtDrive 8) :
    contentionMarks before 0#8 out ext = before :=
  onPin_ext fun p => by simp [opposed]

/-- The first micro-step of `reset_to_idle` releases every pin. -/
theorem exec_resetToIdle_first {s : State} {k : Nat} (hs : s.cursor = (k, 0)) :
    ∃ t, exec .resetToIdle s = .next t ∧ AllReleased s t ∧ t.cursor = (k, 1) := by
  have here : (microSteps .resetToIdle)[0]? = some (.fullWrite .dir 0#8) := rfl
  have mem := List.mem_of_getElem? here
  have edges : FlagsFromEdges (s.markRace s.active .dir) ((s.markRace s.active .dir).writeReg .dir 0#8) :=
    writeReg_flags 0#8 (.inl rfl)
  refine ⟨_, exec_micro (micro_at_cursor hs here), ?_, cursor_afterMicro hs mem⟩
  exact {
    outside := afterMicro_outside mem _
    control := by constructor <;> simp [State.doMicro, State.doFullWrite, State.advance]
    dir := by simp [State.doMicro, State.doFullWrite, State.advance]
    out := by simp [State.doMicro, State.doFullWrite, State.advance]
    ie := by simp [State.doMicro, State.doFullWrite, State.advance]
    ies := by simp [State.doMicro, State.doFullWrite, State.advance]
    race := fun q => by
      rw [afterMicro_race]
      simp only [Micro.writes, Option.some_inj]
      by_cases hq : q = .dir
      · simp [hq]
      · simp [hq, Ne.symm hq]
    flags := by simpa [FlagsFromEdges, State.doMicro, State.doFullWrite, State.advance] using edges
    settled := by
      simp only [State.doMicro, State.doFullWrite, State.advance, setCtx_settled]
      exact writeReg_settles _ _ (.inl rfl)
    contention := by
      simp [State.doMicro, State.doFullWrite, State.advance, State.writeReg, contentionMarks_released] }

/-- Settles O12: the command's first micro-step is the full write of DIR. -/
theorem resetToIdleWritesAllOfDir : Obligations.ResetToIdleWritesAllOfDir := by
  intro s start
  have hs : s.cursor = ((s.ctx s.active).k, 0) := congrArg _ start
  obtain ⟨t, first, h, cursor⟩ := exec_resetToIdle_first hs
  have hj : (t.ctx t.active).j = 1 := congrArg Prod.snd cursor
  rw [h.outside.active] at hj
  exact ⟨t, first, h.dir, h.race, h.out, h.ie, h.ies, h.flags, h.settled, h.contention, h.outside, h.control, hj⟩

/-- Settles O19: after the full write come three masked updates; the flag cleared by the first stays clear where the second does
not change the edge select. -/
theorem resetToIdleArmsTheClockInterrupt : Obligations.ResetToIdleArmsTheClockInterrupt := by
  intro s start
  have hs : s.cursor = ((s.ctx s.active).k, 0) := congrArg _ start
  obtain ⟨a, first, ha, cursor⟩ := exec_resetToIdle_first hs
  obtain ⟨b, run_b, hb, cursor⟩ :=
    execTimes_rmw (i := .resetToIdle) (r := .ifg) (f := .clear) (sig := .aClk) 4 cursor rfl rfl
  obtain ⟨c, run_c, hc, cursor⟩ :=
    execTimes_rmw (i := .resetToIdle) (r := .ies) (f := .apply) (sig := .aClk) 2 cursor rfl rfl
  obtain ⟨d, run_d, hd, cursor⟩ :=
    execTimes_rmw (i := .resetToIdle) (r := .ie) (f := .apply) (sig := .aClk) 0 cursor rfl rfl
  have run : runAlone .resetToIdle s = .next d := by
    show execTimes 7 .resetToIdle s = .next d
    rw [execTimes, first]
    exact run_b.trans (run_c.trans run_d)
  have outside_b := ha.outside.trans hb.outside
  have outside_c := outside_b.trans hc.outside
  have outside_d := outside_c.trans hd.outside
  have control_d := ((ha.control.trans ha.outside hb.control).trans outside_b hc.control).trans outside_c hd.control
  have dir_d : d.dir = a.dir := (hd.kept .dir nofun nofun nofun).trans
    ((hc.kept .dir nofun nofun nofun).trans (hb.kept .dir nofun nofun nofun))
  have out_d : d.out = a.out := (hd.kept .out nofun nofun nofun).trans
    ((hc.kept .out nofun nofun nofun).trans (hb.kept .out nofun nofun nofun))
  have ies_b : b.ies = s.ies := (hb.kept .ies nofun nofun nofun).trans ha.ies
  have ie_c : c.ie = s.ie := (hc.kept .ie nofun nofun nofun).trans ((hb.kept .ie nofun nofun nofun).trans ha.ie)
  have ies_d : d.ies = c.ies := hd.kept .ies nofun nofun nofun
  have selected : b.masked .ies .apply .aClk = s.ies ||| maskOf s.params .aClk := by
    rw [← ies_b, ← outside_b.params]; rfl
  have armed : c.masked .ie .apply .aClk = s.ie ||| maskOf s.params .aClk := by
    rw [← ie_c, ← outside_c.params]; rfl
  have flags_b : b.ifg = clearMask a.ifg (maskOf s.params .aClk) := by
    rw [hb.flagsIfg rfl, ← ha.outside.params]
    exact ifgWritten_clearMask ..
  have flags_d (p : Pin) : bit d.ifg p = (bit b.ifg p || ((bit s.ies p ^^ bit (s.ies ||| maskOf s.params .aClk) p) &&
      bit b.nextDraw p)) := by
    rw [hd.flagsIe rfl, hc.flagsIes rfl, bit_ifgAfterIes, selected, ies_b]
  refine ⟨d, run, dir_d.trans ha.dir, out_d.trans ha.out, ies_d.trans ((hc.written nofun nofun).trans selected),
    (hd.written nofun nofun).trans armed, fun chosen => ?_, fun p hne set => ?_, control_d.gie, control_d.res, ?_,
    control_d.flagLoss, outside_d, hd.settled (hc.settled (hb.settled ha.settled)), commandDone_of_cursor outside_d hs cursor⟩
  · simp [flags_d, flags_b, chosen]
  · simp [flags_d, flags_b, ha.flags.kept p set, hne]
  · rw [← outside_c.active]
    exact hd.landed

/-! ### The falling edge of `bus_a_inhibit` (10_state.md R34; 70_reset_and_hazards.md R253) -/

/-- A line that falls sets its flag where the falling edge is selected and IE does not gate it (10_state.md R34). -/
theorem FlagsFromEdges.falling {s t : State} {p : Pin} (h : FlagsFromEdges s t) (selected : bit s.ies p = true)
    (gate : s.params.flagNeedsEnable = false ∨ bit s.ie p = true) (high : bit s.lvl p = true) (low : bit t.lvl p = false) :
    bit t.ifg p = true := by
  rw [h p]
  rcases gate with gate | gate <;> simp [triggering, selected, high, low, gate]

/-- An output at 0 that the remote side does not drive high is determined low (10_state.md R32). -/
theorem levelAt_low {s : State} {p : Pin} (output : bit s.dir p = true) (zero : bit s.out p = false)
    (undriven : onPin s.ext p ≠ .high) : s.levelAt p = some false := by
  unfold State.levelAt
  rw [output, zero]
  cases he : onPin s.ext p with
  | low => rfl
  | high => exact absurd he undriven
  | z => rfl

/-- A flag enabled and set raises the request (60_exceptions.md R210). -/
theorem irq_of_bit {s : State} {p : Pin} (enabled : bit s.ie p = true) (flag : bit s.ifg p = true) : s.irq = true := by
  rw [State.irq, bne_iff_ne]
  intro none_up
  have := congrArg (bit · p) none_up
  simp [enabled, flag] at this

/-- Settles O37: the clock's line is low after the first two updates, so it fell in one of them; the others clear no flag. -/
theorem inhibitMakesItsOwnFallingEdge : Obligations.InhibitMakesItsOwnFallingEdge := by
  intro s start high selected undriven gate
  have hs : s.cursor = ((s.ctx s.active).k, 0) := congrArg _ start
  obtain ⟨a, run_a, ha, cursor⟩ :=
    execTimes_rmw (i := .busAInhibit) (r := .out) (f := .clear) (sig := .aClk) 6 hs rfl rfl
  obtain ⟨b, run_b, hb, cursor⟩ :=
    execTimes_rmw (i := .busAInhibit) (r := .dir) (f := .apply) (sig := .aClk) 4 cursor rfl rfl
  obtain ⟨c, run_c, hc, cursor⟩ :=
    execTimes_rmw (i := .busAInhibit) (r := .out) (f := .apply) (sig := .aData) 2 cursor rfl rfl
  obtain ⟨d, run_d, hd, -⟩ :=
    execTimes_rmw (i := .busAInhibit) (r := .dir) (f := .clear) (sig := .aData) 0 cursor rfl rfl
  have run : runAlone .busAInhibit s = .next d := run_a.trans (run_b.trans (run_c.trans run_d))
  have ie_a : a.ie = s.ie := ha.kept .ie nofun nofun nofun
  have ies_a : a.ies = s.ies := ha.kept .ies nofun nofun nofun
  have ie_d : d.ie = s.ie := (hd.kept .ie nofun nofun nofun).trans ((hc.kept .ie nofun nofun nofun).trans
    ((hb.kept .ie nofun nofun nofun).trans ie_a))
  have zero : bit b.out (s.params.wiring.pos .aClk) = false := by
    rw [show b.out = s.masked .out .clear .aClk from (hb.kept .out nofun nofun nofun).trans (ha.written nofun nofun),
      State.masked, bit_maskFn, if_pos rfl]
    rfl
  have output : bit b.dir (s.params.wiring.pos .aClk) = true := by
    rw [show b.dir = a.masked .dir .apply .aClk from hb.written nofun nofun, State.masked, ha.outside.params, bit_maskFn,
      if_pos rfl]
    rfl
  have low : bit b.lvl (s.params.wiring.pos .aClk) = false := by
    have ext : b.ext = s.ext := (ha.outside.trans hb.outside).ext
    exact (hb.moved (.inl rfl)).2 _ _ (levelAt_low output zero (by rwa [ext]))
  have flag_b : bit b.ifg (s.params.wiring.pos .aClk) = true := by
    have edges_a : FlagsFromEdges s a := (ha.moved (.inr rfl)).1
    have edges_b : FlagsFromEdges a b := (hb.moved (.inl rfl)).1
    cases between : bit a.lvl (s.params.wiring.pos .aClk) with
    | true => exact edges_b.falling (by rwa [ies_a]) (by rwa [ha.outside.params, ie_a]) between low
    | false => exact edges_b.kept _ (edges_a.falling selected gate high between)
  have flag_d : bit d.ifg (s.params.wiring.pos .aClk) = true :=
    (hd.moved (.inl rfl)).1.kept _ ((hc.moved (.inr rfl)).1.kept _ flag_b)
  exact ⟨d, run, flag_d, fun enabled => irq_of_bit (by rwa [ie_d]) flag_d⟩

end Sys2Proof.Machine
end

section
/-! The statements of 30_encoding.md. The decoder's tables and its verdict by the two fields come first, then the commands' words as
the decoder's inverse, of which the count of the valid words follows. -/

namespace Sys2Proof

/-! ### The decoder's tables (30_encoding.md R82, R84) -/

/-- The opcodes of format S are those up to 5. -/
theorem signalOpOfOp_isSome_iff : ∀ c : BitVec 5, (signalOpOfOp c).isSome ↔ c ≤ 5#5 := by decide

/-- The selectors that name a signal are those below 5. -/
theorem signalOfSel_isSome_iff : ∀ c : BitVec 3, (signalOfSel c).isSome ↔ c < 5#3 := by decide

/-- The opcodes of formats C and H are 8 to 16, 30 and 31. -/
theorem plainOfOp_isSome_iff : ∀ c : BitVec 5, (plainOfOp c).isSome ↔ (8#5 ≤ c ∧ c ≤ 16#5) ∨ 30#5 ≤ c := by decide

theorem signalOpOfOp_eq_some {c : BitVec 5} (h : c ≤ 5#5) : ∃ op, signalOpOfOp c = some op :=
  Option.isSome_iff_exists.mp ((signalOpOfOp_isSome_iff c).mpr h)

theorem signalOpOfOp_eq_none {c : BitVec 5} (h : 5#5 < c) : signalOpOfOp c = none :=
  Option.not_isSome_iff_eq_none.mp fun named => absurd ((signalOpOfOp_isSome_iff c).mp named) (by bv_omega)

theorem signalOfSel_eq_some {c : BitVec 3} (h : c < 5#3) : ∃ sig, signalOfSel c = some sig :=
  Option.isSome_iff_exists.mp ((signalOfSel_isSome_iff c).mpr h)

theorem signalOfSel_eq_none {c : BitVec 3} (h : 5#3 ≤ c) : signalOfSel c = none :=
  Option.not_isSome_iff_eq_none.mp fun named => absurd ((signalOfSel_isSome_iff c).mp named) (by bv_omega)

theorem plainOfOp_eq_some {c : BitVec 5} (h : (8#5 ≤ c ∧ c ≤ 16#5) ∨ 30#5 ≤ c) : ∃ i, plainOfOp c = some i :=
  Option.isSome_iff_exists.mp ((plainOfOp_isSome_iff c).mpr h)

theorem plainOfOp_eq_none {c : BitVec 5} (h : c = 6#5 ∨ c = 7#5 ∨ (17#5 ≤ c ∧ c ≤ 29#5)) : plainOfOp c = none :=
  Option.not_isSome_iff_eq_none.mp fun named => absurd ((plainOfOp_isSome_iff c).mp named) (by bv_omega)

/-! ### The decoder's verdict by the two fields (30_encoding.md R85) -/

section
variable {w : Word} {op : SignalOp} {sig : Signal} {i : Instr}

theorem decode_prim (ho : signalOpOfOp (opField w) = some op) (hs : signalOfSel (selField w) = some sig) :
    decode w = .ok (.prim op sig) := by
  simp [decode, ho, hs]

theorem decode_reservedSelector (ho : signalOpOfOp (opField w) = some op) (hs : signalOfSel (selField w) = none) :
    decode w = .error .reservedSelector := by
  simp [decode, ho, hs]

theorem decode_plain (ho : signalOpOfOp (opField w) = none) (hp : plainOfOp (opField w) = some i)
    (hs : selField w = 0#3) : decode w = .ok i := by
  simp [decode, ho, hp, hs]

theorem decode_nonZeroSelector (ho : signalOpOfOp (opField w) = none) (hp : plainOfOp (opField w) = some i)
    (hs : selField w ≠ 0#3) : decode w = .error .nonZeroSelector := by
  simp [decode, ho, hp, hs]

theorem decode_reservedOpcode (ho : signalOpOfOp (opField w) = none) (hp : plainOfOp (opField w) = none) :
    decode w = .error .reservedOpcode := by
  simp [decode, ho, hp]

/-- A word that decodes is of format S with a signal's selector, or of format C or H with selector zero. -/
theorem decode_eq_ok (h : decode w = .ok i) :
    (∃ op sig, signalOpOfOp (opField w) = some op ∧ signalOfSel (selField w) = some sig ∧ i = .prim op sig) ∨
      (plainOfOp (opField w) = some i ∧ selField w = 0#3) := by
  cases ho : signalOpOfOp (opField w) with
  | some op =>
    cases hs : signalOfSel (selField w) with
    | some sig => exact .inl ⟨op, sig, rfl, rfl, by simpa [decode_prim ho hs, eq_comm] using h⟩
    | none => simp [decode_reservedSelector ho hs] at h
  | none =>
    cases hp : plainOfOp (opField w) with
    | some k =>
      by_cases hs : selField w = 0#3
      · exact .inr ⟨by simpa [decode_plain ho hp hs] using h, hs⟩
      · simp [decode_nonZeroSelector ho hp hs] at h
    | none => simp [decode_reservedOpcode ho hp] at h

end

/-- Settles O1: each range of an opcode or a selector is the domain of one of the decoder's tables, or outside it. -/
theorem decodingFollowsTheFields : Obligations.DecodingFollowsTheFields := by
  intro w
  refine ⟨fun hop hsel => ?_, fun hop hsel => ?_, fun hop hsel => ?_, fun hop hsel => ?_, fun hop => ?_⟩
  · obtain ⟨op, ho⟩ := signalOpOfOp_eq_some hop
    exact decode_reservedSelector ho (signalOfSel_eq_none hsel)
  · obtain ⟨op, ho⟩ := signalOpOfOp_eq_some hop
    obtain ⟨sig, hs⟩ := signalOfSel_eq_some hsel
    exact ⟨op, sig, decode_prim ho hs, ho, hs⟩
  · obtain ⟨i, hp⟩ := plainOfOp_eq_some hop
    exact decode_nonZeroSelector (signalOpOfOp_eq_none (by bv_omega)) hp hsel
  · obtain ⟨i, hp⟩ := plainOfOp_eq_some hop
    exact ⟨i, decode_plain (signalOpOfOp_eq_none (by bv_omega)) hp hsel, hp⟩
  · exact decode_reservedOpcode (signalOpOfOp_eq_none (by bv_omega)) (plainOfOp_eq_none hop)

/-! ### The word of a command (30_encoding.md R81, R84) -/

/-- The opcode of a primitive, that of its word for any signal. -/
def SignalOp.code (op : SignalOp) : BitVec 5 := (Instr.prim op .aClk).fields.op

/-- The selector of a signal, that of its word for any primitive. -/
def Signal.selector (sig : Signal) : BitVec 3 := (Instr.prim .driveHigh sig).fields.sel

theorem fields_prim (op : SignalOp) (sig : Signal) : (Instr.prim op sig).fields = ⟨op.code, sig.selector⟩ := by
  cases op <;> cases sig <;> rfl

theorem code_of_signalOpOfOp {op : SignalOp} : ∀ {c : BitVec 5}, signalOpOfOp c = some op → op.code = c := by
  cases op <;> decide

theorem selector_of_signalOfSel {sig : Signal} : ∀ {c : BitVec 3}, signalOfSel c = some sig → sig.selector = c := by
  cases sig <;> decide

theorem fields_of_plainOfOp {c : BitVec 5} {i : Instr} (h : plainOfOp c = some i) : i.fields = ⟨c, 0#3⟩ := by
  have all : ∀ c, ∀ i ∈ plainOfOp c, i.fields = ⟨c, 0#3⟩ := by decide
  exact all c i h

/-- A command's fields are those of any word that decodes to it. -/
theorem fields_of_decode {w : Word} {i : Instr} (h : decode w = .ok i) : i.fields = ⟨opField w, selField w⟩ := by
  rcases decode_eq_ok h with ⟨op, sig, ho, hs, rfl⟩ | ⟨hp, hs⟩
  · rw [fields_prim, code_of_signalOpOfOp ho, selector_of_signalOfSel hs]
  · rw [fields_of_plainOfOp hp, hs]

/-- The two fields make up the word. -/
theorem opField_append_selField (w : Word) : opField w ++ selField w = w :=
  BitVec.extractLsb'_append_extractLsb'

theorem encode_of_decode {w : Word} {i : Instr} (h : decode w = .ok i) : encode i = w := by
  rw [encode, fields_of_decode h, opField_append_selField]

section
open Laws.Encoding

/-- The statement the model makes for each command holds of every command. -/
theorem encodingStatement (i : Instr) : Statement i := by
  cases i
  exacts [driveHighAClk, driveHighAData, driveHighBClk, driveHighBData, driveHighBSense,
    driveLowAClk, driveLowAData, driveLowBClk, driveLowBData, driveLowBSense,
    releaseAClk, releaseAData, releaseBClk, releaseBData, releaseBSense,
    configureOutputAClk, configureOutputAData, configureOutputBClk, configureOutputBData, configureOutputBSense,
    readHighAClk, readHighAData, readHighBClk, readHighBData, readHighBSense,
    readLowAClk, readLowAData, readLowBClk, readLowBData, readLowBSense,
    resetToIdle, disableClockInterrupt, enableClockInterrupt, acknowledgeClockInterrupt,
    busAIdle, busAInhibit, busAPrepareSend, busBTransmit, busBReceive, eint, dint]

end

theorem wellFormed_of_instr (i : Instr) : i.wellFormed = true := by
  obtain ⟨wellFormed, -⟩ := encodingStatement i
  exact wellFormed

@[simp] theorem decode_encode (i : Instr) : decode (encode i) = .ok i := by
  obtain ⟨-, decoded, -⟩ := encodingStatement i
  exact decoded

theorem decode_eq_ok_iff {w : Word} {i : Instr} : decode w = .ok i ↔ encode i = w :=
  ⟨encode_of_decode, fun h => h ▸ decode_encode i⟩

/-- Settles O2: every command's word decodes to it, and a decoded word's fields are its command's. -/
theorem decodeInvertsEncode : Obligations.DecodeInvertsEncode :=
  ⟨fun i => ⟨wellFormed_of_instr i, decode_encode i⟩, fun _ _ => encode_of_decode⟩

/-- Settles O4: each word is the encoding of its command. -/
theorem sampleWordsDecode : Obligations.SampleWordsDecode :=
  ⟨decode_encode .driveHighAClk, decode_encode .driveLowBData, decode_encode .releaseBClk,
    decode_encode .configureOutputAData, decode_encode .readHighBSense, decode_encode .readLowAClk,
    decode_encode .resetToIdle, decode_encode .enableClockInterrupt, decode_encode .busAInhibit,
    decode_encode .busBReceive, decode_encode .eint, decode_encode .dint⟩

/-! ### How many words are valid (30_encoding.md R86) -/

theorem encode_injective : Function.Injective encode := fun i k h => by
  have decoded : decode (encode i) = .ok k := h ▸ decode_encode k
  simpa using decoded

theorem mem_instrAll (i : Instr) : i ∈ Instr.all := by
  cases i <;> decide

/-- A word is valid where it is some command's. -/
theorem decode_isOk_iff {w : Word} : (decode w).isOk = true ↔ ∃ i, encode i = w := by
  constructor
  · intro h
    cases hd : decode w with
    | ok i => exact ⟨i, encode_of_decode hd⟩
    | error r => simp [hd, Except.isOk, Except.toBool] at h
  · rintro ⟨i, rfl⟩
    rw [decode_encode]
    rfl

/-- The valid words, each once, are the words of the commands. -/
theorem validWords_perm :
    ((List.range 256).filter fun n => (decode (BitVec.ofNat 8 n)).isOk).Perm
      (Instr.all.map fun i => (encode i).toNat) := by
  have once : (Instr.all.map fun i => (encode i).toNat).Nodup :=
    List.Nodup.map (fun _ _ h => encode_injective (BitVec.eq_of_toNat_eq h)) (by decide)
  refine (List.perm_ext_iff_of_nodup (List.nodup_range.filter _) once).mpr fun n => ?_
  simp only [List.mem_filter, List.mem_range, List.mem_map, decode_isOk_iff]
  constructor
  · rintro ⟨small, i, word⟩
    exact ⟨i, mem_instrAll i, by rw [word, BitVec.toNat_ofNat, Nat.mod_eq_of_lt small]⟩
  · rintro ⟨i, -, rfl⟩
    exact ⟨(encode i).isLt, i, by simp⟩

/-- Settles O3: there are as many valid words as commands, and the others are reserved. -/
theorem fortyOneWordsAreValid : Obligations.FortyOneWordsAreValid := by
  have valid : ((List.range 256).filter fun n => (decode (BitVec.ofNat 8 n)).isOk).length = 41 := by
    rw [validWords_perm.length_eq, List.length_map]
    rfl
  have total := (List.range 256).length_eq_length_filter_add fun n => (decode (BitVec.ofNat 8 n)).isOk
  rw [List.length_range, valid] at total
  exact ⟨valid, by omega⟩

end Sys2Proof
end

section
/-! The statements of 40_signal.md. What a masked update keeps of the bits no command owns comes first, then the masks, then the
commands of masked updates, at each of their micro-steps and run with nothing in between, and last a drive read back. -/

namespace Sys2Proof.Machine

/-! ### The bits no command owns (40_signal.md R116; 60_exceptions.md R211) -/

/-- Two bytes agree under a mask where they agree on each of its bits. -/
theorem and_mask_eq_iff {a b mask : Byte} : a &&& mask = b &&& mask ↔ ∀ p, bit mask p = true → bit a p = bit b p := by
  constructor
  · intro h p hp
    simpa [hp] using congrArg (bit · p) h
  · intro h
    apply byte_ext
    intro p
    cases hp : bit mask p with
    | true => simp [hp, h p hp]
    | false => simp [hp]

/-- A foreign bit is no signal's (00_scope.md R9). -/
theorem ne_pos_of_foreign {params : Params} {p : Pin} (h : bit (foreignMask params) p = true) (sig : Signal) :
    p ≠ params.wiring.pos sig := by
  rintro rfl
  simp [bit_foreignMask_pos] at h

/-- The kept bits of every register are as before. -/
def KeepsBits (s t : State) : Prop := ∀ r, t.readReg r &&& keptBits s.params r = s.readReg r &&& keptBits s.params r

section
variable {s t : State}

/-- Only OUT, IE and IES have kept bits. -/
theorem KeepsBits.of_same (out : t.out = s.out) (ie : t.ie = s.ie) (ies : t.ies = s.ies) : KeepsBits s t := by
  intro r
  cases r with
  | out => exact congrArg (· &&& _) out
  | ie => exact congrArg (· &&& _) ie
  | ies => exact congrArg (· &&& _) ies
  | dir => simp [keptBits]
  | inp => simp [keptBits]
  | ifg => simp [keptBits]

/-- No masked update of a command is of a kept bit: those of OUT are of a signal, those of IE and IES of A_CLK. -/
theorem ne_pos_of_kept {i : Instr} {r : Reg} {f : MaskFn} {sig : Signal} (hm : .writeHalf r f sig ∈ microSteps i)
    {params : Params} {p : Pin} (h : bit (keptBits params r) p = true) : p ≠ params.wiring.pos sig := by
  cases r with
  | out => exact ne_pos_of_foreign h sig
  | ie =>
    obtain ⟨rfl, -⟩ := interrupt_writes i hm (.inl rfl)
    simpa [keptBits] using h
  | ies =>
    obtain ⟨rfl, -⟩ := interrupt_writes i hm (.inr (.inl rfl))
    simpa [keptBits] using h
  | dir => simp [keptBits] at h
  | inp => simp [keptBits] at h
  | ifg => simp [keptBits] at h

/-- A write half whose latch is in flight puts the kept bits of its register back as they are (40_signal.md R104). -/
theorem writeHalf_keepsBits (hl : LatchesKeep s) {i : Instr} {r : Reg} {f : MaskFn} {sig : Signal}
    (hm : .writeHalf r f sig ∈ microSteps i) (hc : (s.ctx s.active).inflight = some r) (n : Nat) :
    KeepsBits s (afterMicro s (.writeHalf r f sig) n) := by
  intro q
  by_cases hq : q = .inp ∨ q = .ifg
  · rcases hq with rfl | rfl <;> simp [keptBits]
  obtain ⟨hinp, hifg⟩ := not_or.mp hq
  by_cases hr : q = r
  · subst hr
    rw [writeHalf_readReg s f sig n hinp hifg, and_mask_eq_iff]
    intro p kept
    rw [State.writeHalfValue, bit_maskFn, if_neg (ne_pos_of_kept hm kept)]
    exact and_mask_eq_iff.mp (hl _ _ hc) p kept
  · rw [writeHalf_kept s f sig n hr hinp hifg]

/-- Every micro-step of a sequenced context keeps the kept bits. -/
theorem afterMicro_keepsBits (hl : LatchesKeep s) {i : Instr} {m : Micro} (hm : m ∈ microSteps i)
    (hc : (s.ctx s.active).inflight = m.awaits) (n : Nat) : KeepsBits s (afterMicro s m n) := by
  cases m with
  | readHalf r =>
    obtain ⟨-, out, ie, ies, -⟩ := readHalf_frame s r n
    exact .of_same out ie ies
  | writeHalf r f sig => exact writeHalf_keepsBits hl hm hc n
  | fullWrite r v =>
    obtain ⟨rfl, -⟩ := (micro_writes i hm).2 r v rfl
    apply KeepsBits.of_same <;> simp [State.doMicro, State.doFullWrite, State.advance]
  | sample sig w => apply KeepsBits.of_same <;> simp [State.doMicro, State.doSample, State.advance]
  | setGie b => apply KeepsBits.of_same <;> simp [State.doMicro, State.advance]

/-- Every kind of step keeps the kept bits: those that run no command write no register but IFG. -/
theorem StepKind.keepsBits (hs : Sequenced s) (hl : LatchesKeep s) (h : StepKind s t) : KeepsBits s t := by
  cases h with
  | entry _ _ eq => subst eq; exact .of_same rfl rfl rfl
  | drive _ _ _ _ eq => subst eq; exact .of_same rfl rfl rfl
  | redraw _ _ _ eq => subst eq; exact .of_same rfl rfl rfl
  | micro i w m _ fetch decoded here eq =>
    subst eq
    have inflight := hs.inflight fetch decoded here
    exact afterMicro_keepsBits (s := s.afterTurn) hl (List.mem_of_getElem? here) (by simpa using inflight) _
  | refuse _ _ _ _ _ eq => subst eq; exact .of_same rfl rfl rfl
  | ret _ _ _ eq => subst eq; exact .of_same rfl rfl rfl
  | idle _ _ _ eq => subst eq; exact .of_same rfl rfl rfl

/-- A latch in flight after a micro-step was just read, or was in flight before it (10_state.md R40). -/
theorem afterMicro_latches {i : Instr} {m : Micro} (hm : m ∈ microSteps i) (n : Nat) (c : Context) (r : Reg)
    (hc : ((afterMicro s m n).ctx c).inflight = some r) :
    ((afterMicro s m n).ctx c).latch = s.readReg r ∨
      ((s.ctx c).inflight = some r ∧ ((afterMicro s m n).ctx c).latch = (s.ctx c).latch) := by
  rcases eq_or_other s.active c with rfl | rfl
  · obtain ⟨inflight, latch⟩ := afterMicro_latch (s := s) m n
    rw [inflight] at hc
    rw [latch]
    cases m with
    | readHalf q => exact .inl (congrArg s.readReg (Option.some_inj.mp hc))
    | writeHalf q f sig => cases hc
    | fullWrite q v => exact .inr ⟨hc, rfl⟩
    | sample sig w => exact .inr ⟨hc, rfl⟩
    | setGie b => exact .inr ⟨hc, rfl⟩
  · rw [afterMicro_other hm] at hc ⊢
    exact .inr ⟨hc, rfl⟩

/-- A latch in flight after a step was just read, or was in flight before it (10_state.md R40). -/
theorem step_latches (h : step s = .next t) (c : Context) (r : Reg) (hc : (t.ctx c).inflight = some r) :
    (t.ctx c).latch = s.readReg r ∨ ((s.ctx c).inflight = some r ∧ (t.ctx c).latch = (s.ctx c).latch) := by
  rcases step_micro_or_none h with ⟨i, m, run⟩ | none_run
  · rw [run.eq] at hc ⊢
    simpa using afterMicro_latches (s := s.afterTurn) run.mem _ c r hc
  · exact .inr (none_run.latches c r hc)

end

/-- Settles O50: a latch in flight agrees with its register on the kept bits when read, and no step changes them. -/
theorem noStepChangesKeptBits : Obligations.NoStepChangesKeptBits := by
  intro s t hs hl h
  have kept : KeepsBits s t := (step_kind h).2.keepsBits hs hl
  refine ⟨fun c r hc => ?_, kept .out, kept .ie, kept .ies⟩
  rw [(step_kind h).2.launch_inputs.1, kept r]
  rcases step_latches h c r hc with read | ⟨before, same⟩
  · rw [read]
  · rw [same]
    exact hl c r before

/-! ### Masks (40_signal.md R101 to R103) -/

/-- Settles O8: bit by bit, the helpers are an or and an and-not. -/
theorem maskHelpersTouchOnlyTheMask : Obligations.MaskHelpersTouchOnlyTheMask := by
  intro current mask p
  rw [bit_applyMask, bit_clearMask]
  cases bit mask p <;> simp

/-- A signal's mask is not empty: it has the signal's own bit (40_signal.md R101). -/
theorem maskOf_ne_zero (params : Params) (sig : Signal) : maskOf params sig ≠ 0#8 := by
  intro h
  simpa using congrArg (bit · (params.wiring.pos sig)) h

/-- Distinct positions make two signals' masks disjoint (40_signal.md R101). -/
theorem maskOf_disjoint {params : Params} (hd : params.wiring.distinct = true) {a b : Signal} (hab : a ≠ b) :
    maskOf params a &&& maskOf params b = 0#8 := by
  have apart : params.wiring.pos a ≠ params.wiring.pos b := (pos_injective hd).ne hab
  apply byte_ext
  intro p
  by_cases hp : p = params.wiring.pos a
  · simp [hp, apart]
  · simp [hp]

/-- Settles O9: equal masks would be disjoint from themselves, and no mask is empty. -/
theorem signalMasksAreSingleDisjointBits : Obligations.SignalMasksAreSingleDisjointBits := by
  refine fun params => ⟨fun sig => ⟨rfl, maskOf_ne_zero params sig, bit_maskOf params sig⟩, fun hd a b hab => ?_⟩
  have disjoint := maskOf_disjoint hd hab
  refine ⟨fun same => maskOf_ne_zero params a ?_, disjoint⟩
  rwa [← same, BitVec.and_self] at disjoint

/-! ### The commands of one masked update, at each half (40_signal.md R104, R110 to R113, R116; 41_buspins.md R131 to R133) -/

/-- What either half of a masked update of `r` by a signal's mask leaves, from `s` to `t`. -/
structure HalfFrame (r : Reg) (sig : Signal) (s t : State) : Prop where
  outside : SameOutside s t
  gie : t.gie = s.gie
  res : (t.ctx s.active).res = (s.ctx s.active).res
  flagLoss : r ≠ .ifg → t.flagLoss = s.flagLoss
  race : SameRaceBut r s t
  kept : ∀ q, q ≠ r → q ≠ .inp → q ≠ .ifg → t.readReg q = s.readReg q
  bits : r ≠ .inp → r ≠ .ifg → ∀ p, p ≠ s.params.wiring.pos sig →
    bit (t.readReg r) p = bit (s.readReg r) p ∨ bit (t.readReg r) p = bit (s.ctx s.active).latch p
  edges : r = .dir ∨ r = .out → FlagsFromEdges s t
  still : r ≠ .dir → r ≠ .out → SameLines s t
  flagsIe : r = .ie → t.ifg = s.ifg

section
variable {i : Instr} {r : Reg} {f : MaskFn} {sig : Signal} {s t : State}

/-- Flags and lines that stay as they are have no edge between them (10_state.md R34). -/
theorem FlagsFromEdges.of_same (flags : t.ifg = s.ifg) (lines : SameLines s t) : FlagsFromEdges s t := by
  intro p
  rw [flags, lines.lvl, triggering_same, Bool.false_and, Bool.or_false]

/-- A read half changes no register. -/
theorem readHalf_halfFrame (hm : .readHalf r ∈ microSteps i) (sig : Signal) (n : Nat) :
    HalfFrame r sig s (afterMicro s (.readHalf r) n) := by
  obtain ⟨dir, out, ie, ies, ifg, lines, control, race⟩ := readHalf_frame s r n
  have kept (q : Reg) : (afterMicro s (.readHalf r) n).readReg q = s.readReg q := by
    simp [State.doMicro, State.doReadHalf, State.advance]
  exact {
    outside := afterMicro_outside hm n
    gie := control.gie
    res := control.res
    flagLoss := fun _ => control.flagLoss
    race := fun _ _ => by rw [race]
    kept := fun q _ _ _ => kept q
    bits := fun _ _ _ _ => .inl (by rw [kept])
    edges := fun _ => .of_same ifg lines
    still := fun _ _ => lines
    flagsIe := fun _ => ifg }

/-- A write half changes the signal's bit of its register and puts the other latched bits back. -/
theorem writeHalf_halfFrame (hm : .writeHalf r f sig ∈ microSteps i) (n : Nat) :
    HalfFrame r sig s (afterMicro s (.writeHalf r f sig) n) := by
  obtain ⟨-, -, -, -, gie, res, flagLoss, race, edges, still, flagsIe, -⟩ := writeHalf_frame s r f sig n
  exact {
    outside := afterMicro_outside hm n
    gie := gie
    res := res
    flagLoss := flagLoss
    race := race
    kept := fun q hq hinp hifg => writeHalf_kept s f sig n hq hinp hifg
    bits := fun hinp hifg p hp => .inr (by
      rw [writeHalf_readReg s f sig n hinp hifg, State.writeHalfValue, bit_maskFn, if_neg hp])
    edges := edges
    still := still
    flagsIe := flagsIe }

/-- The halves of a masked update, as a command's micro-steps. -/
theorem halfFrame_of_mem_rmw {m : Micro} (hm : m ∈ microSteps i) (half : m ∈ rmw r f sig) (n : Nat) :
    HalfFrame r sig s (afterMicro s m n) := by
  simp only [rmw, List.mem_cons, List.not_mem_nil, or_false] at half
  rcases half with rfl | rfl
  · exact readHalf_halfFrame hm sig n
  · exact writeHalf_halfFrame hm n

/-- A command that answers a next state ran one of its micro-steps. -/
theorem exec_next (h : exec i s = .next t) : ∃ m ∈ microSteps i, t = afterMicro s m (microSteps i).length := by
  rw [exec_eq, runMicro_next] at h
  obtain ⟨m, here, eq⟩ := h
  exact ⟨m, List.mem_of_getElem? here, eq⟩

/-- A command that is one masked update, at either half. -/
theorem exec_halfFrame (hi : microSteps i = rmw r f sig) (h : exec i s = .next t) : HalfFrame r sig s t := by
  obtain ⟨m, hm, rfl⟩ := exec_next h
  exact halfFrame_of_mem_rmw hm (hi ▸ hm) _

/-- A half of a masked update of any register but IFG keeps the control fields. -/
theorem HalfFrame.control (h : HalfFrame r sig s t) (hr : r ≠ .ifg) : SameControl s t := ⟨h.gie, h.res, h.flagLoss hr⟩

/-- A half of a masked update leaves a foreign bit as it was or as it was latched (40_signal.md R116). -/
theorem HalfFrame.foreign_bit (h : HalfFrame r sig s t) {q : Reg} (hinp : q ≠ .inp) (hifg : q ≠ .ifg) {p : Pin}
    (foreign : bit (foreignMask s.params) p = true) :
    bit (t.readReg q) p = bit (s.readReg q) p ∨ bit (t.readReg q) p = bit (s.ctx s.active).latch p := by
  by_cases hq : q = r
  · subst hq
    exact h.bits hinp hifg p (ne_pos_of_foreign foreign sig)
  · exact .inl (by rw [h.kept q hq hinp hifg])

end

/-- Settles O28: both commands are one masked update of OUT. -/
theorem outputCommandsFrame : Obligations.OutputCommandsFrame := by
  intro op sig s t hop h
  have frame : HalfFrame .out sig s t := by
    rcases hop with rfl | rfl
    · exact exec_halfFrame (microSteps_prim .driveHigh sig) h
    · exact exec_halfFrame (microSteps_prim .driveLow sig) h
  exact ⟨frame.kept .dir nofun nofun nofun, frame.kept .ie nofun nofun nofun, frame.kept .ies nofun nofun nofun,
    frame.edges (.inr rfl), frame.outside, frame.control nofun, frame.race, frame.bits nofun nofun⟩

/-- Settles O29: both commands are one masked update of DIR. -/
theorem directionCommandsFrame : Obligations.DirectionCommandsFrame := by
  intro op sig s t hop h
  have frame : HalfFrame .dir sig s t := by
    rcases hop with rfl | rfl
    · exact exec_halfFrame (microSteps_prim .release sig) h
    · exact exec_halfFrame (microSteps_prim .configureOutput sig) h
  exact ⟨frame.kept .out nofun nofun nofun, frame.kept .ie nofun nofun nofun, frame.kept .ies nofun nofun nofun,
    frame.edges (.inl rfl), frame.outside, frame.control nofun, frame.race, frame.bits nofun nofun⟩

/-- The micro-steps of `reset_to_idle`: the full write of DIR, and the halves of three masked updates (41_buspins.md R130). -/
theorem mem_resetToIdle {m : Micro} (hm : m ∈ microSteps .resetToIdle) :
    m = .fullWrite .dir 0#8 ∨ ∃ r f sig, r ≠ .out ∧ m ∈ rmw r f sig := by
  simp only [microSteps, resetToIdleSteps, List.mem_cons, List.mem_append] at hm
  rcases hm with rfl | (flag | select) | enable
  · exact .inl rfl
  · exact .inr ⟨.ifg, .clear, .aClk, nofun, flag⟩
  · exact .inr ⟨.ies, .apply, .aClk, nofun, select⟩
  · exact .inr ⟨.ie, .apply, .aClk, nofun, enable⟩

/-- Settles O30: the three single-register commands are one masked update each; `reset_to_idle` begins with a full write of DIR. -/
theorem interruptLifecycleFrame : Obligations.InterruptLifecycleFrame := by
  refine ⟨fun s t h => ?_, fun i s t hi h => ?_, fun s t h => ?_⟩
  · obtain ⟨m, hm, rfl⟩ := exec_next h
    rcases mem_resetToIdle hm with rfl | ⟨r, f, sig, hr, half⟩
    · refine ⟨?_, ?_, ?_, afterMicro_outside hm _⟩ <;> simp [State.doMicro, State.doFullWrite, State.advance]
    · have frame := halfFrame_of_mem_rmw (s := s) hm half (microSteps .resetToIdle).length
      exact ⟨frame.kept .out hr.symm nofun nofun, frame.gie, frame.res, frame.outside⟩
  · have frame : HalfFrame .ie .aClk s t := by
      rcases hi with rfl | rfl
      · exact exec_halfFrame (f := .clear) rfl h
      · exact exec_halfFrame (f := .apply) rfl h
    exact ⟨frame.kept .dir nofun nofun nofun, frame.kept .out nofun nofun nofun, frame.kept .ies nofun nofun nofun,
      frame.flagsIe rfl, frame.still nofun nofun, frame.outside, frame.control nofun, frame.race⟩
  · have frame : HalfFrame .ifg .aClk s t := exec_halfFrame (f := .clear) rfl h
    exact ⟨frame.kept .dir nofun nofun nofun, frame.kept .out nofun nofun nofun, frame.kept .ie nofun nofun nofun,
      frame.kept .ies nofun nofun nofun, frame.gie, frame.res, frame.still nofun nofun, frame.outside, frame.race⟩

/-! ### The bus-state composites: masked updates of DIR and OUT one after the other (41_buspins.md R134 to R139) -/

/-- The masked update `RMW(c, R, f, m(s))` by its register, its helper and its signal (40_signal.md R104). -/
structure Rmw where
  reg : Reg
  fn : MaskFn
  sig : Signal

/-- Its two halves. -/
def Rmw.steps (u : Rmw) : List Micro := rmw u.reg u.fn u.sig

/-- What it makes of the value of a register, of which it may be the update or not. -/
def Rmw.value (params : Params) (q : Reg) (v : Byte) (u : Rmw) : Byte :=
  if u.reg = q then maskFn u.fn v (maskOf params u.sig) else v

/-- The masked updates of a bus-state command, in order (41_buspins.md R134 to R138); none for another command. -/
def busRmws : Instr → List Rmw
  | .busAIdle => [⟨.out, .apply, .aClk⟩, ⟨.out, .apply, .aData⟩, ⟨.dir, .clear, .aClk⟩, ⟨.dir, .clear, .aData⟩]
  | .busAInhibit => [⟨.out, .clear, .aClk⟩, ⟨.dir, .apply, .aClk⟩, ⟨.out, .apply, .aData⟩, ⟨.dir, .clear, .aData⟩]
  | .busAPrepareSend => [⟨.out, .apply, .aClk⟩, ⟨.out, .apply, .aData⟩, ⟨.dir, .clear, .aClk⟩, ⟨.dir, .apply, .aData⟩]
  | .busBTransmit => [⟨.out, .apply, .bClk⟩, ⟨.out, .apply, .bData⟩, ⟨.dir, .apply, .bClk⟩, ⟨.dir, .apply, .bData⟩]
  | .busBReceive => [⟨.out, .apply, .bData⟩, ⟨.dir, .clear, .bClk⟩, ⟨.dir, .clear, .bData⟩]
  | _ => []

/-- A bus-state command is nothing but its updates. -/
theorem microSteps_busRmws {i : Instr}
    (hi : i = .busAIdle ∨ i = .busAInhibit ∨ i = .busAPrepareSend ∨ i = .busBTransmit ∨ i = .busBReceive) :
    microSteps i = (busRmws i).flatMap Rmw.steps := by
  rcases hi with rfl | rfl | rfl | rfl | rfl <;> rfl

/-- They are updates of DIR and OUT. -/
theorem busRmws_reg (i : Instr) : ∀ u ∈ busRmws i, u.reg = .dir ∨ u.reg = .out := by
  unfold busRmws
  split <;> simp

/-- DIR and OUT are not any of the other registers. -/
theorem ne_of_bus {r q : Reg} (bus : r = .dir ∨ r = .out) (hd : q ≠ .dir) (ho : q ≠ .out) : q ≠ r := by
  rcases bus with rfl | rfl
  · exact hd
  · exact ho

/-- Settles O31: every micro-step is a half of a masked update of DIR or of OUT, by a signal's mask. -/
theorem busStateCommandsFrame : Obligations.BusStateCommandsFrame := by
  intro i s t hi h
  obtain ⟨m, hm, eq⟩ := exec_next h
  obtain ⟨u, hu, half⟩ := List.mem_flatMap.mp (microSteps_busRmws hi ▸ hm)
  have bus := busRmws_reg i u hu
  have frame : HalfFrame u.reg u.sig s t := eq ▸ halfFrame_of_mem_rmw hm half _
  exact ⟨frame.kept .ie (ne_of_bus bus nofun nofun) nofun nofun, frame.kept .ies (ne_of_bus bus nofun nofun) nofun nofun,
    frame.edges bus, frame.outside, frame.control (ne_of_bus (q := .ifg) bus nofun nofun).symm,
    fun q hd ho => frame.race q (ne_of_bus bus hd ho),
    fun p foreign => ⟨frame.foreign_bit (q := .out) nofun nofun foreign, frame.foreign_bit (q := .dir) nofun nofun foreign⟩⟩

/-- What masked updates of DIR and OUT do one after the other, nothing in between, from `s` to `t`. -/
structure BusUpdates (us : List Rmw) (s t : State) : Prop where
  outside : SameOutside s t
  control : SameControl s t
  ie : t.ie = s.ie
  ies : t.ies = s.ies
  flags : NoFlagCleared s t
  lines : LinesSettled t
  landed : (t.ctx s.active).inflight = none
  race : ∀ r, r ≠ .dir → r ≠ .out → t.race.has r = s.race.has r
  written : ∀ q, q = .dir ∨ q = .out → t.readReg q = us.foldl (Rmw.value s.params q) (s.readReg q)

section
variable {s t v : State}

/-- One update. -/
theorem MaskedUpdate.busUpdates {u : Rmw} (h : MaskedUpdate u.reg u.fn u.sig s t) (bus : u.reg = .dir ∨ u.reg = .out) :
    BusUpdates [u] s t where
  outside := h.outside
  control := h.control
  ie := h.kept .ie (ne_of_bus bus nofun nofun) nofun nofun
  ies := h.kept .ies (ne_of_bus bus nofun nofun) nofun nofun
  flags := (h.moved bus).1.kept
  lines := (h.moved bus).2
  landed := h.landed
  race q hd ho := h.race q (ne_of_bus bus hd ho)
  written q hq := by
    have hinp : q ≠ .inp := (ne_of_bus (q := .inp) hq nofun nofun).symm
    have hifg : q ≠ .ifg := (ne_of_bus (q := .ifg) hq nofun nofun).symm
    show _ = Rmw.value s.params q (s.readReg q) u
    unfold Rmw.value
    split
    next here => subst here; exact h.written hinp hifg
    next other => exact h.kept q (Ne.symm other) hinp hifg

/-- Updates after updates. -/
theorem BusUpdates.trans {us vs : List Rmw} (h : BusUpdates us s t) (h' : BusUpdates vs t v) :
    BusUpdates (us ++ vs) s v where
  outside := h.outside.trans h'.outside
  control := h.control.trans h.outside h'.control
  ie := h'.ie.trans h.ie
  ies := h'.ies.trans h.ies
  flags p hp := h'.flags p (h.flags p hp)
  lines := h'.lines
  landed := by rw [← h.outside.active]; exact h'.landed
  race r hd ho := (h'.race r hd ho).trans (h.race r hd ho)
  written q hq := by rw [List.foldl_append, ← h.written q hq, ← h.outside.params, h'.written q hq]

/-- The updates of a whole command meet the frame of the bus commands (41_buspins.md R139). -/
theorem BusUpdates.frame {us : List Rmw} (h : BusUpdates us s t) (done : CommandDone s t) : BusCommandFrame s t :=
  { h with done := done }

end

/-- From a cursor where masked updates are all that is left of a command, running them ends the command. -/
theorem execTimes_busUpdates {i : Instr} {u : Rmw} {us : List Rmw} {s : State} {k j : Nat}
    (bus : ∀ w ∈ u :: us, w.reg = .dir ∨ w.reg = .out) (hs : s.cursor = (k, j))
    (left : (microSteps i).drop j = (u :: us).flatMap Rmw.steps) :
    ∃ t, execTimes ((u :: us).flatMap Rmw.steps).length i s = .next t ∧ BusUpdates (u :: us) s t ∧
      t.cursor = (k + 1, 0) := by
  have at_cursor (n : Nat) : (microSteps i)[j + n]? = ((u :: us).flatMap Rmw.steps)[n]? := by
    rw [← left, List.getElem?_drop]
  have hread : (microSteps i)[j]? = some (.readHalf u.reg) := at_cursor 0
  have hwrite : (microSteps i)[j + 1]? = some (.writeHalf u.reg u.fn u.sig) := at_cursor 1
  obtain ⟨t, run, update, cursor⟩ := execTimes_rmw (us.flatMap Rmw.steps).length hs hread hwrite
  have first := update.busUpdates (bus u (.head _))
  have rest : (microSteps i).drop (j + 2) = us.flatMap Rmw.steps := by
    rw [← List.drop_drop, left]
    rfl
  cases us with
  | nil =>
    have last : ¬ j + 2 < (microSteps i).length := by
      simpa using rest
    rw [if_neg last] at cursor
    exact ⟨t, run, first, cursor⟩
  | cons w ws =>
    have inside : j + 2 < (microSteps i).length := by
      by_contra past
      rw [List.drop_eq_nil_of_le (by omega)] at rest
      cases rest
    rw [if_pos inside] at cursor
    obtain ⟨v, run', updates, cursor'⟩ := execTimes_busUpdates (fun x hx => bus x (.tail _ hx)) cursor rest
    exact ⟨v, run.trans run', first.trans updates, cursor'⟩

/-- A bus-state command, with nothing in between, makes its updates in order (41_buspins.md R134 to R139). -/
theorem runAlone_busRmws {i : Instr} {s : State}
    (hi : i = .busAIdle ∨ i = .busAInhibit ∨ i = .busAPrepareSend ∨ i = .busBTransmit ∨ i = .busBReceive)
    (start : AtStart s) :
    ∃ t, runAlone i s = .next t ∧ t.out = (busRmws i).foldl (Rmw.value s.params .out) s.out ∧
      t.dir = (busRmws i).foldl (Rmw.value s.params .dir) s.dir ∧ BusCommandFrame s t := by
  have hs : s.cursor = ((s.ctx s.active).k, 0) := congrArg _ start
  obtain ⟨u, us, list⟩ : ∃ u us, busRmws i = u :: us := by
    rcases hi with rfl | rfl | rfl | rfl | rfl <;> exact ⟨_, _, rfl⟩
  have steps : microSteps i = (u :: us).flatMap Rmw.steps := list ▸ microSteps_busRmws hi
  obtain ⟨t, run, updates, cursor⟩ := execTimes_busUpdates (list ▸ busRmws_reg i) hs steps
  rw [list]
  refine ⟨t, ?_, updates.written .out (.inr rfl), updates.written .dir (.inl rfl),
    updates.frame (commandDone_of_cursor updates.outside hs cursor)⟩
  rw [runAlone, steps]
  exact run

/-- Clearing two masks one after the other clears both. -/
theorem clearMask_clearMask (v a b : Byte) : clearMask (clearMask v a) b = v &&& ~~~(a ||| b) := by
  rw [clearMask, clearMask, BitVec.not_or, BitVec.and_assoc]

/-- Applying two masks one after the other applies both. -/
theorem applyMask_applyMask (v a b : Byte) : applyMask (applyMask v a) b = v ||| (a ||| b) := BitVec.or_assoc ..

/-- Settles O22: two bits of OUT are set, two of DIR cleared. -/
theorem busAIdleReleasesBothLines : Obligations.BusAIdleReleasesBothLines := by
  intro s start
  obtain ⟨t, run, out, dir, frame⟩ := runAlone_busRmws (.inl rfl) start
  exact ⟨t, run, out.trans (applyMask_applyMask ..), dir.trans (clearMask_clearMask ..), frame⟩

/-- Settles O23: the clock's bits and the data's are written each once, and are apart. -/
theorem busAInhibitHoldsTheClockLow : Obligations.BusAInhibitHoldsTheClockLow := by
  intro s start distinct
  obtain ⟨t, run, out, dir, frame⟩ := runAlone_busRmws (.inr (.inl rfl)) start
  replace out : t.out = (s.out &&& ~~~maskOf s.params .aClk) ||| maskOf s.params .aData := out
  replace dir : t.dir = (s.dir ||| maskOf s.params .aClk) &&& ~~~maskOf s.params .aData := dir
  have apart : s.params.wiring.pos .aClk ≠ s.params.wiring.pos .aData := (pos_injective distinct).ne nofun
  refine ⟨t, run, out, dir, ?_, ?_, ?_, ?_, frame⟩ <;> simp [out, dir, apart]

/-- Settles O24: the clock's bit of DIR and the data's are written each once, and are apart. -/
theorem busAPrepareSendTakesTheDataLine : Obligations.BusAPrepareSendTakesTheDataLine := by
  intro s start distinct
  obtain ⟨t, run, out, dir, frame⟩ := runAlone_busRmws (.inr (.inr (.inl rfl))) start
  replace dir : t.dir = (s.dir &&& ~~~maskOf s.params .aClk) ||| maskOf s.params .aData := dir
  have apart : s.params.wiring.pos .aClk ≠ s.params.wiring.pos .aData := (pos_injective distinct).ne nofun
  refine ⟨t, run, out.trans (applyMask_applyMask ..), dir, ?_, ?_, frame⟩ <;> simp [dir, apart]

/-- Settles O25: two bits of OUT and two of DIR are set. -/
theorem busBTransmitDrivesBothLines : Obligations.BusBTransmitDrivesBothLines := by
  intro s start
  obtain ⟨t, run, out, dir, frame⟩ := runAlone_busRmws (.inr (.inr (.inr (.inl rfl)))) start
  exact ⟨t, run, out.trans (applyMask_applyMask ..), dir.trans (applyMask_applyMask ..), frame⟩

/-- Settles O26: the one update of OUT is of the data's bit, which is not the clock's. -/
theorem busBReceiveKeepsTheClockOutputBit : Obligations.BusBReceiveKeepsTheClockOutputBit := by
  intro s start distinct
  obtain ⟨t, run, out, dir, frame⟩ := runAlone_busRmws (.inr (.inr (.inr (.inr rfl)))) start
  replace out : t.out = s.out ||| maskOf s.params .bData := out
  have apart : s.params.wiring.pos .bClk ≠ s.params.wiring.pos .bData := (pos_injective distinct).ne nofun
  refine ⟨t, run, out, ?_, dir.trans (clearMask_clearMask ..), frame⟩
  simp [out, apart]

/-! ### A drive read back (40_signal.md R117; 90_conflicts.md C3) -/

/-- The level of an output the remote side does not oppose is its output bit (10_state.md R32). -/
theorem levelAt_output {s : State} {p : Pin} (output : bit s.dir p = true)
    (unopposed : opposed true (bit s.out p) (onPin s.ext p) = false) : s.levelAt p = some (bit s.out p) := by
  simp [State.levelAt, lineLevel, output, unopposed]

/-- A command that is one masked update of OUT, nothing in between, puts the line of an unopposed output at the level driven. -/
theorem runAlone_drive {i : Instr} {f : MaskFn} {sig : Signal} {s : State} (hi : microSteps i = rmw .out f sig)
    (start : AtStart s) (output : bit s.dir (s.params.wiring.pos sig) = true)
    (unopposed : opposed true (decide (f = .apply)) (onPin s.ext (s.params.wiring.pos sig)) = false) :
    ∃ t, runAlone i s = .next t ∧ SameOutside s t ∧ AtStart t ∧
      bit t.lvl (s.params.wiring.pos sig) = decide (f = .apply) := by
  obtain ⟨t₁, t, first, second, update, done⟩ := exec_rmw_command hi start
  have run : runAlone i s = .next t := by
    rw [runAlone, hi]
    show execTimes 2 i s = .next t
    simp only [execTimes, first, second]
  have driven : bit t.out (s.params.wiring.pos sig) = decide (f = .apply) := by
    rw [show t.out = s.masked .out f sig from update.written nofun nofun, State.masked, bit_maskFn, if_pos rfl]
  have dir : t.dir = s.dir := update.kept .dir nofun nofun nofun
  have level : t.levelAt (s.params.wiring.pos sig) = some (bit t.out (s.params.wiring.pos sig)) :=
    levelAt_output (by rwa [dir]) (by rwa [driven, update.outside.ext])
  refine ⟨t, run, update.outside, ?_, ?_⟩
  · rw [AtStart, update.outside.active]
    exact done.j
  · rw [(update.moved (.inr rfl)).2 _ _ level, driven]

/-- A command that is one sample returns whether the line has the wanted level (40_signal.md R106). -/
theorem runAlone_sample {i : Instr} {sig : Signal} {want : Bool} {s : State} (hi : microSteps i = [.sample sig want])
    (start : AtStart s) :
    ∃ t, runAlone i s = .next t ∧ (t.ctx s.active).res = some (bit s.lvl (s.params.wiring.pos sig) == want) := by
  have start : (s.ctx s.active).j = 0 := start
  have here : (microSteps i)[(s.ctx s.active).j]? = some (.sample sig want) := by rw [hi, start]; rfl
  refine ⟨afterMicro s (.sample sig want) 1, ?_, ?_⟩
  · rw [runAlone, hi]
    show execTimes 1 i s = _
    simp only [execTimes, exec_micro here, hi, List.length_singleton]
  · rw [afterMicro_sample, setCtx_ctx_self]

/-- A drive that is not opposed, then a sample for the level driven, returns true. -/
theorem drive_then_sample {i i' : Instr} {f : MaskFn} {sig : Signal} {s : State} (hi : microSteps i = rmw .out f sig)
    (hi' : microSteps i' = [.sample sig (decide (f = .apply))]) (start : AtStart s)
    (output : bit s.dir (s.params.wiring.pos sig) = true)
    (unopposed : opposed true (decide (f = .apply)) (onPin s.ext (s.params.wiring.pos sig)) = false) :
    ∃ t u, runAlone i s = .next t ∧ runAlone i' t = .next u ∧ (u.ctx s.active).res = some true := by
  obtain ⟨t, run, outside, at_start, level⟩ := runAlone_drive hi start output unopposed
  obtain ⟨u, run', res⟩ := runAlone_sample hi' at_start
  rw [outside.active, outside.params, level, beq_self_eq_true] at res
  exact ⟨t, u, run, run', res⟩

/-- Only a remote low opposes an output at 1 (10_state.md R32). -/
theorem not_opposed_high {e : ExtDrive} (h : e ≠ .low) : opposed true true e = false := by
  cases e with
  | low => exact absurd rfl h
  | high => rfl
  | z => rfl

/-- Only a remote high opposes an output at 0 (10_state.md R32). -/
theorem not_opposed_low {e : ExtDrive} (h : e ≠ .high) : opposed true false e = false := by
  cases e with
  | low => rfl
  | high => exact absurd rfl h
  | z => rfl

/-- Settles O18: the drive leaves the line at the level driven, and the read samples the line. -/
theorem drivenLevelIsReadBack : Obligations.DrivenLevelIsReadBack := fun sig _ start output =>
  ⟨fun undriven => drive_then_sample (f := .apply) (microSteps_prim .driveHigh sig) (microSteps_prim .readHigh sig) start
      output (not_opposed_high undriven),
    fun undriven => drive_then_sample (f := .clear) (microSteps_prim .driveLow sig) (microSteps_prim .readLow sig) start
      output (not_opposed_low undriven)⟩

end Sys2Proof.Machine
end

section
/-! The statements of 41_buspins.md about the clock's interrupt enable: a command that is one masked update of IE. -/

namespace Sys2Proof.Machine

/-- A command that is one masked update of IE, nothing in between, writes no other register and moves no line
(40_signal.md R104; 41_buspins.md R131, R132). -/
theorem exec_ie_rmw {i : Instr} {s : State} {f : MaskFn} {sig : Signal} (hi : microSteps i = rmw .ie f sig)
    (start : AtStart s) :
    ∃ t₁ t, exec i s = .next t₁ ∧ exec i t₁ = .next t ∧ t.ie = maskFn f s.ie (maskOf s.params sig) ∧ t.dir = s.dir ∧
      t.out = s.out ∧ t.ies = s.ies ∧ t.ifg = s.ifg ∧ SameLines s t ∧ SameOutside s t ∧ SameControl s t ∧
      SameRaceBut .ie s t ∧ (t.ctx s.active).inflight = none ∧ CommandDone s t := by
  obtain ⟨t₁, t, first, second, h, done⟩ := exec_rmw_command hi start
  exact ⟨t₁, t, first, second, h.written nofun nofun, h.kept .dir nofun nofun nofun, h.kept .out nofun nofun nofun,
    h.kept .ies nofun nofun nofun, h.flagsIe rfl, h.still nofun nofun, h.outside, h.control, h.race, h.landed, done⟩

/-- Settles O20: both commands are one masked update of IE. -/
theorem clockInterruptIsDisabledAndEnabled : Obligations.ClockInterruptIsDisabledAndEnabled := fun _ start =>
  ⟨exec_ie_rmw (i := .disableClockInterrupt) (f := .clear) rfl start,
    exec_ie_rmw (i := .enableClockInterrupt) (f := .apply) rfl start⟩

end Sys2Proof.Machine
end

section
/-! The statements of 42_host.md: the two host commands, no nested entry, and the end of a run. -/

namespace Sys2Proof.Machine

/-! ### The global interrupt enable (42_host.md R170, R171) -/

/-- A command that is one write of the global enable changes that and the cursor, which goes past the command. -/
theorem exec_setGie {i : Instr} {b : Bool} {s : State} (hi : microSteps i = [.setGie b]) (start : AtStart s) :
    exec i s = .next
      ({ s with gie := b }.setCtx s.active { s.ctx s.active with k := (s.ctx s.active).k + 1, j := 0 }) := by
  have start : (s.ctx s.active).j = 0 := start
  have here : (microSteps i)[(s.ctx s.active).j]? = some (.setGie b) := by rw [hi, start]; rfl
  have moved : (s.ctx s.active).advance 1 = { s.ctx s.active with k := (s.ctx s.active).k + 1, j := 0 } := by
    simp [ContextState.advance]
  rw [exec_micro here, hi, List.length_singleton, afterMicro, State.doMicro, State.advance, doSetGie_ctx, moved,
    State.doSetGie]

/-- Settles O27: both commands are one write of the global enable. -/
theorem hostCommandsWriteTheGlobalEnable : Obligations.HostCommandsWriteTheGlobalEnable := fun _ start =>
  ⟨exec_setGie rfl start, exec_setGie rfl start⟩

/-! ### No nesting (60_exceptions.md R212, R216) -/

/-- While the handler is active the entry is not admitted, so it is not the turn taken. -/
theorem turn_ne_interrupt {s : State} (active : s.inIsr = true) : s.turn ≠ .interrupt := by
  intro entry
  have enabled : s.admits .interrupt = true := entry ▸ turn_admitted s
  simp [State.admits, State.entryEnabled, active] at enabled

/-- Settles O40: an eint leaves the handler active, and no state in the handler takes the entry. -/
theorem noNestedEntry : Obligations.NoNestedEntry := by
  intro s active
  refine ⟨turn_ne_interrupt active, fun t done => ?_⟩
  obtain ⟨m, mem, rfl⟩ := exec_next done
  have active' : (afterMicro s m (microSteps .eint).length).inIsr = true := (afterMicro_outside mem _).inIsr.trans active
  obtain rfl : m = .setGie true := List.mem_singleton.mp mem
  exact ⟨setCtx_gie .., active', turn_ne_interrupt active'⟩

/-! ### The end of a run (42_host.md R173) -/

/-- The conditions of a final state (42_host.md R173). -/
theorem final_iff {s : State} :
    s.final = true ↔ s.fg.k = s.fgProgram.length ∧ s.fg.j = 0 ∧ s.inIsr = false ∧ s.fg.inflight = none ∧
      s.isr.inflight = none ∧ s.refused = none := by
  simp [State.final, and_assoc]

/-- Past its program's end the foreground's turn takes nothing but the turn (10_state.md R39; log entry 13). -/
theorem step_idle {s : State} (hr : s.refused = none) (turn : s.turn = .context) (inactive : s.inIsr = false)
    (fetch : s.fetch = none) : step s = .next s.afterTurn := by
  have idle : s.move = .settle s.afterTurn := by
    rw [move_context hr turn]
    simp [State.contextMove, fetch, inactive]
  rw [step, idle]

/-- Settles O44: a final state's foreground has no word to fetch, and taking the turn changes the schedule alone. -/
theorem finalStateIsQuiet : Obligations.FinalStateIsQuiet := by
  refine fun s => ⟨final_iff, fun final turn => ?_⟩
  obtain ⟨past, -, inactive, -, -, hr⟩ := final_iff.mp final
  have fetch : s.fetch = none := by
    rw [State.fetch, active_fg inactive]
    exact List.getElem?_eq_none past.ge
  exact ⟨s.afterTurn, step_idle hr turn inactive fetch, rfl, final⟩

end Sys2Proof.Machine
end

section
/-! The statements of 60_exceptions.md about the interrupt. The request comes first, then the entry it enables and the return that
enables it again. -/

namespace Sys2Proof.Machine

/-! ### The request (60_exceptions.md R210) -/

/-- The request is up exactly where some pin is both enabled and flagged. -/
theorem irq_iff {s : State} : s.irq = true ↔ ∃ p, bit s.ie p = true ∧ bit s.ifg p = true := by
  constructor
  · intro up
    by_contra no_pin
    have none_up : s.ie &&& s.ifg = 0#8 := byte_ext fun p => by
      rw [bit_and, bit_zero, Bool.eq_false_iff, ne_eq, Bool.and_eq_true]
      exact fun both => no_pin ⟨p, both⟩
    exact bne_iff_ne.mp up none_up
  · rintro ⟨p, enabled, flag⟩
    exact irq_of_bit enabled flag

/-- The conditions of an entry (60_exceptions.md R212). -/
theorem entryEnabled_iff {s : State} :
    s.entryEnabled = true ↔ s.gie = true ∧ s.irq = true ∧ s.inIsr = false ∧ s.refused = none := by
  simp [State.entryEnabled, and_assoc]

/-- Settles O41: a byte is zero exactly where none of its bits is set, and gie is a condition of the entry. -/
theorem requestIsAnEnabledFlag : Obligations.RequestIsAnEnabledFlag := by
  refine fun s => ⟨irq_iff, fun masked => ?_⟩
  rw [Bool.eq_false_iff]
  intro enabled
  obtain ⟨gie, -⟩ := entryEnabled_iff.mp enabled
  exact Bool.false_ne_true (masked.symm.trans gie)

/-! ### The entry (60_exceptions.md R212, R213) -/

/-- Settles O38: under these conditions the chosen entry is admitted, so it is the turn taken. -/
theorem interruptEntry : Obligations.InterruptEntry := by
  intro s gie flag inactive hr chosen
  have enabled : s.entryEnabled = true := entryEnabled_iff.mpr ⟨gie, bne_iff_ne.mpr flag, inactive, hr⟩
  exact step_interrupt hr (turn_eq chosen enabled)

/-! ### The return (60_exceptions.md R215) -/

/-- At the end of the handler's program the handler's turn is the return. -/
theorem step_return {s : State} (hr : s.refused = none) (turn : s.turn = .context) (active : s.inIsr = true)
    (fetch : s.fetch = none) : step s = .next s.afterTurn.returnFromInterrupt := by
  have back : s.move = .settle s.afterTurn.returnFromInterrupt := by
    rw [move_context hr turn]
    simp [State.contextMove, fetch, active]
  rw [step, back]

/-- The return sets gie and ends the handler, so of the entry's conditions the request is the one left (60_exceptions.md R212). -/
theorem returnFromInterrupt_entryEnabled {s : State} (hr : s.refused = none) :
    s.returnFromInterrupt.entryEnabled = s.irq := by
  simp [State.entryEnabled, State.irq, hr]

/-- Settles O39: past the handler's last word there is none to fetch, so its turn is the return. -/
theorem interruptReturn : Obligations.InterruptReturn := by
  intro s active past _ hr turn
  have fetch : s.fetch = none := by
    rw [State.fetch, active_isr active]
    exact List.getElem?_eq_none past.ge
  exact ⟨_, step_return hr turn active fetch, rfl, returnFromInterrupt_entryEnabled (s := s.afterTurn) hr⟩

end Sys2Proof.Machine
end

section
/-! The statements of 70_reset_and_hazards.md: the micro-step counts, and no interrupt before an `eint`. Before the second comes
what writes the global enable. -/

namespace Sys2Proof.Machine

/-! ### The micro-step counts (70_reset_and_hazards.md R263) -/

/-- Settles O6: the primitives are counted by operation, whatever the signal; the other commands' lists are written out. -/
theorem microStepCounts : Obligations.MicroStepCounts := by
  refine ⟨fun op sig => ?_, rfl, rfl, rfl, rfl, rfl, rfl, rfl, rfl, rfl, rfl, rfl⟩
  rw [microSteps_prim]
  cases op <;> rfl

/-! ### What writes the global enable (42_host.md R170, R171) -/

/-- Of the micro-steps only the write of the global enable changes it. -/
theorem afterMicro_keeps_gie (s : State) {m : Micro} (n : Nat) (h : ∀ b, m ≠ .setGie b) : (afterMicro s m n).gie = s.gie := by
  cases m with
  | readHalf r => simp [State.doMicro, State.doReadHalf, State.advance]
  | writeHalf r f sig =>
    obtain ⟨-, -, -, -, gie, -⟩ := writeHalf_frame s r f sig n
    exact gie
  | fullWrite r v => simp [State.doMicro, State.doFullWrite, State.advance]
  | sample sig want => simp [State.doMicro, State.doSample, State.advance]
  | setGie b => exact absurd rfl (h b)

/-- After it the enable is the value written. -/
theorem afterMicro_setGie_gie (s : State) (b : Bool) (n : Nat) : (afterMicro s (.setGie b) n).gie = b := setCtx_gie ..

/-- Of the commands only `eint` sets it (42_host.md R170). -/
theorem eq_eint_of_setGie_true {i : Instr} (h : .setGie true ∈ microSteps i) : i = .eint := by
  have key : ∀ i ∈ Instr.all, .setGie true ∈ microSteps i → i = .eint := by decide
  exact key i (mem_all i) h

/-- A micro-step after which a clear enable is set is one of `eint` (42_host.md R170). -/
theorem eq_eint_of_gie_set {s : State} {i : Instr} {m : Micro} (hm : m ∈ microSteps i) {n : Nat} (masked : s.gie = false)
    (set : (afterMicro s m n).gie = true) : i = .eint := by
  by_cases writes : ∃ b, m = .setGie b
  · obtain ⟨b, rfl⟩ := writes
    obtain rfl : b = true := (afterMicro_setGie_gie s b n).symm.trans set
    exact eq_eint_of_setGie_true hm
  · have kept : (afterMicro s m n).gie = s.gie := afterMicro_keeps_gie s n fun b e => writes ⟨b, e⟩
    rw [kept, masked] at set
    cases set

/-! ### No interrupt before an `eint` (70_reset_and_hazards.md R240, R241) -/

/-- With interrupts disabled no handler gets active, and only a step of `eint` leaves them enabled: the entry needs the enable and the
return a handler, and of the other kinds of step only a command's micro-step can write the enable. -/
theorem StepKind.foreground_masked {s t : State} (h : StepKind s t) (hr : s.refused = none) (inactive : s.inIsr = false)
    (masked : s.gie = false) : t.inIsr = false ∧ (t.gie = true → s.move = .run .eint s.afterTurn) := by
  have still_masked {p : Prop} (set : s.gie = true) : p := absurd (masked.symm.trans set) Bool.false_ne_true
  cases h with
  | entry _ enabled _ => exact still_masked (entryEnabled_iff.mp enabled).1
  | drive _ _ _ _ eq => subst eq; exact ⟨inactive, still_masked⟩
  | redraw _ _ _ eq => subst eq; exact ⟨inactive, still_masked⟩
  | micro i w m turn fetch decoded here eq =>
    subst eq
    have hm : m ∈ microSteps i := List.mem_of_getElem? here
    have frame : SameOutside s.afterTurn (afterMicro s.afterTurn m (microSteps i).length) := afterMicro_outside hm _
    refine ⟨frame.inIsr.trans inactive, fun set => ?_⟩
    obtain rfl : i = .eint := eq_eint_of_gie_set (s := s.afterTurn) hm masked set
    exact move_run_iff.mpr ⟨hr, turn, rfl, w, fetch, decoded⟩
  | refuse _ _ _ _ _ eq => subst eq; exact ⟨inactive, still_masked⟩
  | ret _ _ active _ => exact absurd (inactive.symm.trans active) Bool.false_ne_true
  | idle _ _ _ eq => subst eq; exact ⟨inactive, still_masked⟩

/-- Settles O42: reset leaves the foreground running with interrupts disabled, and every kind of step meets the rest. -/
theorem noInterruptBeforeEint : Obligations.NoInterruptBeforeEint := by
  refine ⟨rfl, rfl, fun s t inactive masked h => ?_⟩
  obtain ⟨hr, kind⟩ := step_kind h
  exact kind.foreground_masked hr inactive masked

end Sys2Proof.Machine
end
